-- ==== Sys2Proof/Word.lean ====
section
/-! DEFINITION. The word types of the Huffman codec block and the node record (00_scope.md R10, R14; 10_state.md R33). -/

namespace Sys2Proof

/-- A bus word: every register of the window and every command word is 32 bits (R61, R80). -/
abbrev Word := BitVec 32

/-- A byte of the output buffer: a bit token or a decoded symbol (R39). -/
abbrev Byte := BitVec 8

/-- A symbol: 8 bits, ordered as an unsigned integer (R10: SYM_WIDTH, N_SYM). -/
abbrev Sym := BitVec 8

/-- A frequency count, a node weight or TOTAL (R10: COUNT_WIDTH). -/
abbrev Count := BitVec 32

/-- A node index (R10: IDX_WIDTH). -/
abbrev NodeIdx := BitVec 9

/-- A byte offset in the 128 KiB register window (R60). -/
abbrev Offset := BitVec 17

/-- A length in bytes of the output buffer (R37). -/
abbrev Len := BitVec 17

/-- The bits of a codeword as the code table stores them: bit `i` is c_i (R31). -/
abbrev CodeBits := BitVec 255

/-- One entry of the node arena (R33). `sym` is meaningful when `isLeaf`, `left` and `right` when not. -/
structure Node where
  isLeaf : Bool
  sym : Sym
  weight : Count
  left : NodeIdx
  right : NodeIdx
  deriving DecidableEq, Repr, Inhabited

end Sys2Proof
end

