-- ==== Sys2Proof/Syntax.lean ====
section
/-! DEFINITION. The ten commands (30_encoding.md R83), the fields of a command word (R81), the assembler's operands (R91)
and the host's actions (R92; 70_reset_and_hazards.md R230). -/

namespace Sys2Proof

/-- The ten commands of the opcode map, one constructor per row of opcode_table.json (R83). -/
inductive Instr where
  /-- CLEAR: start a new, empty training input (R101). -/
  | clear
  /-- TRAIN_SYM s: count one occurrence of `s` (R105). -/
  | trainSym (s : Sym)
  /-- BUILD: build the tree and the code table (R120). -/
  | build
  /-- GET_CODE s: look up the codeword of `s` (R151). -/
  | getCode (s : Sym)
  /-- ENC_BEGIN: open an encode transaction (R152). -/
  | encBegin
  /-- ENC_SYM s: append the codeword of `s` (R153). -/
  | encSym (s : Sym)
  /-- ENC_END: close the encode transaction (R155). -/
  | encEnd
  /-- DEC_BEGIN: open a decode transaction (R171). -/
  | decBegin
  /-- DEC_BIT t: take one bit token (R172). -/
  | decBit (t : Byte)
  /-- DEC_END: close the decode transaction (R175). -/
  | decEnd
  deriving DecidableEq, Repr

/-- The three fields of a command word (R81). -/
structure CmdFields where
  op : BitVec 8
  rsv : BitVec 16
  opd : BitVec 8
  deriving DecidableEq, Repr

/-- The mnemonics of the assembler (R91). -/
inductive Mnemonic where
  | clear | trainSym | build | getCode | encBegin | encSym | encEnd | decBegin | decBit | decEnd
  deriving DecidableEq, Repr

/-- An operand as a listing writes it (R91): `0xNN`, a decimal number, or a character literal. -/
inductive AsmOperand where
  | hex (n : Nat)
  | dec (n : Nat)
  | char (c : Char)
  deriving DecidableEq, Repr

/-- One line of a command listing (R91): a mnemonic and, for four of them, an operand. -/
structure AsmLine where
  mnemonic : Mnemonic
  operand : Option AsmOperand
  deriving DecidableEq, Repr

/-- One action of the host (R16, R92, R230). -/
inductive HostAction where
  /-- `MemRead(off, 4)`: the word read is put in the host's log. -/
  | read (off : Offset)
  /-- `MemWrite(off, 4, v)`. -/
  | write (off : Offset) (v : Word)
  /-- WAIT: read STATUS until BUSY = 0 (R92, R235). -/
  | wait
  /-- READOUT n, where n is the word the host's last READ returned (R92, R96: `READ OUT_LEN; READOUT OUT_LEN`). -/
  | readout
  /-- RST is asserted and released (R230). -/
  | rst
  deriving DecidableEq, Repr

end Sys2Proof
end

