-- ==== Sys2Proof/WellFormed.lean ====
section
/-! DEFINITION. Which command words, listing lines and host scripts are well formed (30_encoding.md R84, R85, R91;
70_reset_and_hazards.md R235). An `Instr` needs no check of its own: its operand is 8 bits by type, and R89 makes each of
the 256 values an operand form. -/

namespace Sys2Proof

/-- OP names one of the ten commands (R85: not 0x00 and below 0x0B). -/
def CmdFields.opAssigned (f : CmdFields) : Bool :=
  f.op != 0x00 && decide (f.op < 0x0B)

/-- RSV is 0 (R81, R85). -/
def CmdFields.rsvZero (f : CmdFields) : Bool :=
  f.rsv == 0

/-- The command takes an operand: TRAIN_SYM, GET_CODE, ENC_SYM and DEC_BIT do (R82, R84). -/
def CmdFields.takesOperand (f : CmdFields) : Bool :=
  f.op == 0x02 || f.op == 0x04 || f.op == 0x06 || f.op == 0x09

/-- OPD is 0 unless the command takes an operand (R84). -/
def CmdFields.opdAllowed (f : CmdFields) : Bool :=
  f.takesOperand || f.opd == 0

/-- The word with these fields is legal (R85: it is illegal when any of the checks fails). -/
def CmdFields.wf (f : CmdFields) : Bool :=
  f.opAssigned && f.rsvZero && f.opdAllowed

/-- The mnemonic is written with an operand (R91). -/
def Mnemonic.takesOperand : Mnemonic → Bool
  | .trainSym | .getCode | .encSym | .decBit => true
  | .clear | .build | .encBegin | .encEnd | .decBegin | .decEnd => false

/-- A listing's operand names a byte (R91: `0xNN`, 0 to 255, or an ASCII character; log 21). -/
def AsmOperand.wf : AsmOperand → Bool
  | .hex n => decide (n < 256)
  | .dec n => decide (n < 256)
  | .char c => decide (c.toNat < 128)

/-- A listing's line has an operand exactly when its mnemonic takes one, and the operand names a byte (R91). -/
def AsmLine.wf (l : AsmLine) : Bool :=
  match l.operand with
  | none => !l.mnemonic.takesOperand
  | some o => l.mnemonic.takesOperand && o.wf

/-- The action writes CMD: offset bits [16:2] are 0 (R61, R62). -/
def HostAction.writesCmd : HostAction → Bool
  | .write off _ => off >>> 2 == 0
  | .read _ | .wait | .readout | .rst => false

/-- The host keeps its duty of R235: it never writes CMD before it has waited for BUSY = 0, where `pending` says that the
block may be busy now (a command was written, or RST was released, since the last WAIT). -/
def scriptWaits : Bool → List HostAction → Bool
  | _, [] => true
  | pending, a :: rest =>
    match a with
    | .wait => scriptWaits false rest
    | .rst => scriptWaits true rest
    | .read _ | .readout => scriptWaits pending rest
    | .write _ _ => if a.writesCmd then !pending && scriptWaits true rest else scriptWaits pending rest

end Sys2Proof
end

