-- ==== Sys2Proof/Decode.lean ====
section
/-! DEFINITION. Decoding and encoding of command words (30_encoding.md R80 to R90) and the assembler (R91). -/

namespace Sys2Proof

/-- The fields of a command word (R81): OP = w[31:24], RSV = w[23:8], OPD = w[7:0]. -/
def fieldsOf (w : Word) : CmdFields :=
  { op := w.extractLsb' 24 8, rsv := w.extractLsb' 8 16, opd := w.extractLsb' 0 8 }

/-- The word with given fields: OP, RSV and OPD from the most significant end (R81). -/
def CmdFields.word (f : CmdFields) : Word :=
  (f.op ++ f.rsv ++ f.opd).cast rfl

/-- Why the decoder rejects a word (R85), in the order of R90's checks. -/
inductive IllegalWord where
  /-- OP = 0x00 or OP >= 0x0B. -/
  | reservedOpcode
  /-- RSV is not 0. -/
  | reservedFieldNotZero
  /-- OPD is not 0 for a command without an operand (R84). -/
  | operandNotZero
  deriving DecidableEq, Repr

/-- The decoder of R90, total on every 32-bit word; whether a decoded command may run depends on PHASE, not on the word. -/
def decode (w : Word) : Except IllegalWord Instr :=
  let f := fieldsOf w
  if f.op = 0x00 ∨ 0x0B ≤ f.op then .error .reservedOpcode
  else if f.rsv ≠ 0 then .error .reservedFieldNotZero
  else if (f.op = 0x01 ∨ f.op = 0x03 ∨ f.op = 0x05 ∨ f.op = 0x07 ∨ f.op = 0x08 ∨ f.op = 0x0A) ∧ f.opd ≠ 0 then
    .error .operandNotZero
  else
    match f.op.toNat with
    | 0x01 => .ok .clear
    | 0x02 => .ok (.trainSym f.opd)
    | 0x03 => .ok .build
    | 0x04 => .ok (.getCode f.opd)
    | 0x05 => .ok .encBegin
    | 0x06 => .ok (.encSym f.opd)
    | 0x07 => .ok .encEnd
    | 0x08 => .ok .decBegin
    | 0x09 => .ok (.decBit f.opd)
    | 0x0A => .ok .decEnd
    | _ => .error .reservedOpcode

/-- The fields of a command's word, from the opcode map (R83): `RSV` is 0 and OPD is the operand or 0. -/
def Instr.fields : Instr → CmdFields
  | .clear => ⟨0x01, 0, 0⟩
  | .trainSym s => ⟨0x02, 0, s⟩
  | .build => ⟨0x03, 0, 0⟩
  | .getCode s => ⟨0x04, 0, s⟩
  | .encBegin => ⟨0x05, 0, 0⟩
  | .encSym s => ⟨0x06, 0, s⟩
  | .encEnd => ⟨0x07, 0, 0⟩
  | .decBegin => ⟨0x08, 0, 0⟩
  | .decBit t => ⟨0x09, 0, t⟩
  | .decEnd => ⟨0x0A, 0, 0⟩

/-- The word of a command: `{OP, 16'h0000, OPD}` (R83). -/
def encode (i : Instr) : Word :=
  i.fields.word

/-- The byte a listing's operand stands for (R91; character codes are ASCII). -/
def AsmOperand.value : AsmOperand → Byte
  | .hex n => BitVec.ofNat 8 n
  | .dec n => BitVec.ofNat 8 n
  | .char c => BitVec.ofNat 8 c.toNat

/-- The command a mnemonic stands for, with operand `v` where it takes one (R91). -/
def Mnemonic.instr (m : Mnemonic) (v : Byte) : Instr :=
  match m with
  | .clear => .clear
  | .trainSym => .trainSym v
  | .build => .build
  | .getCode => .getCode v
  | .encBegin => .encBegin
  | .encSym => .encSym v
  | .encEnd => .encEnd
  | .decBegin => .decBegin
  | .decBit => .decBit v
  | .decEnd => .decEnd

/-- The command of a well-formed line of a listing (R91). -/
def assemble (l : AsmLine) : Option Instr :=
  if l.wf then some (l.mnemonic.instr ((l.operand.map AsmOperand.value).getD 0)) else none

/-- The command word that an instruction's bits `w`, numbered from bit 0, stand for; bits at `nbits` and above are 0
(R69: a command word is one 32-bit value and has no byte order; log 20). -/
def tableWord (nbits w : Nat) : Word :=
  BitVec.ofNat 32 (w % 2 ^ nbits)

/-- What the decoder reads from the bits `w` of a row of opcode_table.json. -/
def decodeTableWord (nbits w : Nat) : Option Instr :=
  match decode (tableWord nbits w) with
  | .ok i => some i
  | .error _ => none

end Sys2Proof
end

