-- ==== Sys2Proof/Config.lean ====
section
/-! DEFINITION. What an implementation of the block fixes, and the free values the spec leaves open (00_scope.md R10;
92_eei_decisions.md, OPEN parameters). An `opaque` constant has no body: no proof can see its value. -/

namespace Sys2Proof.Config

/-- OUT_CAP, the output buffer's size in bytes: 65536 for this hardware (R10, D9; log 12). -/
def outCap : Nat := 65536

/-- BASE, the platform's placement of the register window (R60, D16): OPEN (log 13). -/
opaque base : Nat

/-- T_BUSY (R24, R240): for the `k`-th free draw, how many more steps a taken command keeps BUSY at 1 before the step in
which it completes. Finite, otherwise unbounded and unknown (log 2). -/
opaque tBusy : Nat → Nat

/-- T_INIT (R232): for the `k`-th free draw, how many more steps the block stays initialising after RST is released (log 3). -/
opaque tInit : Nat → Nat

/-- What reading NODE at an index outside 0 to 510 gives (log 9): open, and met only in states no run reaches. -/
opaque absentNode : Nat → Node

/-- What reading HEAP at an index outside 0 to 255 gives (log 9): open, and met only in states no run reaches. -/
opaque absentHeapEntry : Nat → NodeIdx

end Sys2Proof.Config
end

