-- ==== Sys2Proof/Machine/State.lean ====
section
/-! DEFINITION. The state of the block (10_state.md), the host's side of the bus, the reasons a step can stop, and the
state after reset (10_state.md R43; 70_reset_and_hazards.md R231, R232). -/

namespace Sys2Proof.Machine

/-- STATUS.PHASE (R22). -/
inductive Phase where
  /-- 0: the model is under construction. -/
  | train
  /-- 1: the model is built and frozen. -/
  | ready
  /-- 2: an encode transaction is open. -/
  | enc
  /-- 3: a decode transaction is open. -/
  | dec
  deriving DecidableEq, Repr

/-- The interface errors of STATUS.CMD_ERR (R204). -/
inductive CmdErr where
  /-- 0: the command passed the checks and ran. -/
  | none
  /-- 1: the word is illegal. -/
  | illegalCommand
  /-- 2: the command is not legal in the current phase. -/
  | badPhase
  /-- 3: TOTAL is 0xFFFF_FFFF already. -/
  | trainOverflow
  deriving DecidableEq, Repr

/-- The data errors of STATUS.TXN_ERR (R206). -/
inductive TxnErr where
  /-- 0: no error in the transaction so far. -/
  | none
  /-- 1: the symbol has no codeword. -/
  | unknownSymbol
  /-- 2: the byte is not a bit token, or is '1' in a single-symbol model. -/
  | invalidBitToken
  /-- 3: the stream ended inside a codeword. -/
  | truncatedStream
  /-- 4: a stream against an empty model. -/
  | emptyModel
  /-- 5: the result would exceed OUT_CAP bytes. -/
  | outputOverflow
  deriving DecidableEq, Repr

/-- What the sequencer is doing (R24, R232). `left` counts the steps for which the block still stays busy: the model's own
form of T_BUSY and T_INIT (log 2, log 3). -/
inductive Activity where
  /-- BUSY = 0. -/
  | idle
  /-- BUSY = 1: the command word `w` was taken and has not completed (R65; log 16). `old` is DROPPED from before the command,
  which is what STATUS shows meanwhile (R70, R236; log 7). -/
  | running (w : Word) (old : Bool) (left : Nat)
  /-- BUSY = 1: the initialisation after RST was released. -/
  | initialising (left : Nat)
  deriving DecidableEq, Repr

/-- The code table, CT_LEN and CT_BITS (R31). -/
structure CodeTable where
  len : Vector (BitVec 8) 256
  bits : Vector CodeBits 256
  deriving DecidableEq, Repr

/-- The Tree Builder's store: NODE (R33), HEAP and HSIZE (R34), NEXT (R35). -/
structure TreeBuilder where
  node : Vector Node 511
  heap : Vector NodeIdx 256
  hsize : BitVec 9
  next : NodeIdx
  deriving DecidableEq, Repr

/-- OUTBUF's contents (R39): (address, byte) pairs in canonical form, addresses strictly rising and no entry equal to what
an unlisted address reads as. -/
abbrev Memory := List Host.Cell

/-- The machine's state. -/
structure State where
  /-- STATUS.PHASE (R22). -/
  phase : Phase
  /-- STATUS.RES_OK (R25). -/
  resOk : Bool
  /-- STATUS.TXN_ERR (R26). -/
  txnErr : TxnErr
  /-- STATUS.CMD_ERR (R27). -/
  cmdErr : CmdErr
  /-- DROPPED, the sticky bit (R28); STATUS shows it when BUSY = 0 (`State.shownDropped`). -/
  dropped : Bool
  /-- MODEL.NSYM (R29). -/
  nsym : BitVec 9
  /-- TOTAL (R32). -/
  total : Count
  /-- OUT_LEN (R37). -/
  outLen : Len
  /-- WORK_LEN, hidden (R37). -/
  workLen : Len
  /-- RES_LEN (R40). -/
  resLen : BitVec 8
  /-- RES_CODE (R40). -/
  resCode : BitVec 256
  /-- FREQ (R30). -/
  freq : Vector Count 256
  /-- CT_LEN and CT_BITS (R31). -/
  ct : CodeTable
  /-- NODE, HEAP, HSIZE and NEXT (R33 to R35). -/
  tb : TreeBuilder
  /-- ROOT, hidden (R36). -/
  root : NodeIdx
  /-- CURSOR, hidden (R38). -/
  cursor : NodeIdx
  /-- OUTBUF (R39). -/
  outbuf : Memory
  /-- BUSY and the taken command word (R24, R65). -/
  activity : Activity
  /-- The model's own: how many free draws were taken (log 3). -/
  draws : Nat
  /-- The model's own: the host's actions still to come, first one first (log 4). -/
  host : List HostAction
  /-- The model's own: the words the host's reads returned, newest first (log 4). -/
  readLog : List Word
  deriving DecidableEq, Repr

/-- The reasons the machine can stop with a fault: none. The block never traps and never stops (R200), so this type has no
constructor and no meaning raises a fault (safe: nothing the spec gives an effect is stopped; log 15). -/
inductive Fault where
  deriving DecidableEq, Repr

/-- The reasons a step can have no meaning. -/
inductive Refusal where
  /-- Raised only by an arm of `exec` whose instruction has no meaning yet (safe); no arm is left so. -/
  | notModelled (mnemonic : String)
  deriving DecidableEq, Repr

/-- The code table with no codeword (R43). -/
def CodeTable.empty : CodeTable :=
  { len := Vector.replicate 256 0, bits := Vector.replicate 256 0 }

/-- The Tree Builder's store after reset: HSIZE and NEXT are 0 (R43); NODE and HEAP are unspecified there, and hold zeros here
(DESIGN CHOICE, log 1). -/
def TreeBuilder.reset : TreeBuilder :=
  { node := Vector.replicate 511 { isLeaf := false, sym := 0, weight := 0, left := 0, right := 0 }
    heap := Vector.replicate 256 0
    hsize := 0
    next := 0 }

/-- The state right after RST is released (R43, R231, R232): every register at its reset value and the block initialising for
its first draw of T_INIT. NODE, HEAP and OUTBUF, unspecified in R43, hold zeros (DESIGN CHOICE, log 1). -/
def State.reset : State :=
  { phase := .train
    resOk := false
    txnErr := .none
    cmdErr := .none
    dropped := false
    nsym := 0
    total := 0
    outLen := 0
    workLen := 0
    resLen := 0
    resCode := 0
    freq := Vector.replicate 256 0
    ct := CodeTable.empty
    tb := TreeBuilder.reset
    root := 0
    cursor := 0
    outbuf := []
    activity := .initialising (Config.tInit 0)
    draws := 1
    host := []
    readLog := [] }

end Sys2Proof.Machine
end

