-- ==== Sys2Proof/Machine/Ops.lean ====
section
/-! DEFINITION. The named operations over the block's memories and registers, and the shared operations every command goes
through: the phase check, raising an error, failing a transaction (20_memory.md; 60_exceptions.md R202 to R207). -/

namespace Sys2Proof.Machine

/-- What a command's meaning answers. -/
abbrev Result := Host.Outcome State Fault Refusal

/-! ## OUTBUF (R39) -/

/-- What an OUTBUF byte that nothing has written reads as (unspecified in R43; DESIGN CHOICE 0x00, log 1). -/
def Memory.unlisted : Byte := 0

/-- OUTBUF[k]. -/
def Memory.read : Memory → Nat → Byte
  | [], _ => Memory.unlisted
  | (a, v) :: rest, k => if a = k then v else Memory.read rest k

/-- OUTBUF[k] <- v, keeping the canonical form. -/
def Memory.write : Memory → Nat → Byte → Memory
  | [], k, v => if v = Memory.unlisted then [] else [(k, v)]
  | (a, w) :: rest, k, v =>
    if k < a then
      if v = Memory.unlisted then (a, w) :: rest else (k, v) :: (a, w) :: rest
    else if k = a then
      if v = Memory.unlisted then rest else (k, v) :: rest
    else (a, w) :: Memory.write rest k v

/-- The canonical form: addresses strictly rising, no entry equal to what an unlisted address reads as. -/
def Memory.wf : Memory → Bool
  | [] => true
  | (a, v) :: rest => v != Memory.unlisted && rest.all (fun c => decide (a < c.1)) && Memory.wf rest

/-- Every listed address is an index of OUTBUF (R39: OUTBUF[0] to OUTBUF[OUT_CAP - 1]). -/
def Memory.inCap (m : Memory) : Bool :=
  m.all (fun c => decide (c.1 < Config.outCap))

/-! ## FREQ and the code table (R30, R31) -/

/-- FREQ[x]. -/
def State.freqOf (s : State) (x : Sym) : Count :=
  s.freq[x.toNat]'(x.isLt)

/-- FREQ[x] <- v. -/
def State.setFreq (s : State) (x : Sym) (v : Count) : State :=
  { s with freq := s.freq.set x.toNat v x.isLt }

/-- CT_LEN[x]. -/
def CodeTable.lenOf (t : CodeTable) (x : Sym) : BitVec 8 :=
  t.len[x.toNat]'(x.isLt)

/-- CT_BITS[x]. -/
def CodeTable.bitsOf (t : CodeTable) (x : Sym) : CodeBits :=
  t.bits[x.toNat]'(x.isLt)

/-- CT_LEN[x] <- l and CT_BITS[x] <- b. -/
def CodeTable.setCode (t : CodeTable) (x : Sym) (l : BitVec 8) (b : CodeBits) : CodeTable :=
  { len := t.len.set x.toNat l x.isLt, bits := t.bits.set x.toNat b x.isLt }

/-- The 256 symbols in ascending order (R10, R121). -/
def allSyms : List Sym :=
  (List.range 256).map (BitVec.ofNat 8)

/-! ## The Tree Builder's store (R33, R34) -/

/-- NODE[i]; an index the arena lacks reads as a free value (log 9). -/
def TreeBuilder.nodeAt (b : TreeBuilder) (i : NodeIdx) : Node :=
  if h : i.toNat < 511 then b.node[i.toNat] else Config.absentNode i.toNat

/-- NODE[i] <- x; an index the arena lacks is not written (log 9). -/
def TreeBuilder.setNode (b : TreeBuilder) (i : NodeIdx) (x : Node) : TreeBuilder :=
  { b with node := b.node.setIfInBounds i.toNat x }

/-- NODE[i].LEFT for bit 0 and NODE[i].RIGHT for bit 1 (R130, R174). -/
def TreeBuilder.child (b : TreeBuilder) (i : NodeIdx) (right : Bool) : NodeIdx :=
  if right then (b.nodeAt i).right else (b.nodeAt i).left

/-- HEAP[i]; an index the heap lacks reads as a free value (log 9). -/
def TreeBuilder.heapAt (b : TreeBuilder) (i : Nat) : NodeIdx :=
  if h : i < 256 then b.heap[i] else Config.absentHeapEntry i

/-- HEAP[i] <- x; an index the heap lacks is not written (log 9). -/
def TreeBuilder.setHeap (b : TreeBuilder) (i : Nat) (x : NodeIdx) : TreeBuilder :=
  { b with heap := b.heap.setIfInBounds i x }

/-- Swap HEAP[i] and HEAP[j] (R127, R128). -/
def TreeBuilder.swapHeap (b : TreeBuilder) (i j : Nat) : TreeBuilder :=
  (b.setHeap i (b.heapAt j)).setHeap j (b.heapAt i)

/-! ## Running a command (R202) -/

/-- The phases in which a command is legal (R83, R86). -/
def legalPhase : Instr → Phase → Bool
  | .clear, _ => true
  | .trainSym _, p => p == .train
  | .build, p => p == .train
  | .getCode _, p => p == .ready
  | .encBegin, p => p == .ready
  | .encSym _, p => p == .enc
  | .encEnd, p => p == .enc
  | .decBegin, p => p == .ready
  | .decBit _, p => p == .dec
  | .decEnd, p => p == .dec

/-- `raise CmdError(e)` (R203): CMD_ERR <- e, and no other state changes. -/
def State.raiseCmdError (s : State) (e : CmdErr) : State :=
  { s with cmdErr := e }

/-- CMD_ERR <- NONE: the command passed the checks of R202. -/
def State.accepted (s : State) : State :=
  { s with cmdErr := .none }

/-- `raise TxnError(e)` (R205): TXN_ERR <- e, and the command has no further effect. -/
def State.raiseTxnError (s : State) (e : TxnErr) : State :=
  { s with txnErr := e }

/-- A CMD write that is dropped (R201): DROPPED <- 1, and nothing else changes. -/
def State.dropWrite (s : State) : State :=
  { s with dropped := true }

/-- The command completes or the initialisation ends: BUSY <- 0 (R24, R70, R232). -/
def State.release (s : State) : State :=
  { s with activity := .idle }

/-- The phase check of R202, then CMD_ERR <- NONE and the command's pseudocode `body`; a command in a wrong phase is
rejected with BAD_PHASE. This is how every command is run once its word is decoded. -/
def accept (i : Instr) (body : State → State) (s : State) : Result :=
  if legalPhase i s.phase then .next (body s.accepted) else .next (s.raiseCmdError .badPhase)

/-- A command of an open transaction that may raise a data error: once TXN_ERR is non-zero it does nothing (R207); an error it
raises leaves no other effect (R205). -/
def transact (body : State → Except TxnErr State) (s : State) : State :=
  if s.txnErr ≠ .none then s
  else
    match body s with
    | .ok t => t
    | .error e => s.raiseTxnError e

end Sys2Proof.Machine
end

