-- ==== Sys2Proof/Machine/Flags.lean ====
section
/-! DEFINITION. STATUS and its fields (10_state.md R22 to R28, R44), the error codes (60_exceptions.md R204, R206), and the
commit of a transaction (42_encode.md R156). -/

namespace Sys2Proof.Machine

/-- BUSY (R24): 1 while a taken command has not completed and during the initialisation after reset. -/
def State.busy (s : State) : Bool :=
  match s.activity with
  | .idle => false
  | .running _ _ _ => true
  | .initialising _ => true

/-- The code of a phase in STATUS[2:1] (R22). -/
def Phase.code : Phase → BitVec 2
  | .train => 0
  | .ready => 1
  | .enc => 2
  | .dec => 3

/-- The code of an interface error in STATUS[11:8] (R204). -/
def CmdErr.code : CmdErr → BitVec 4
  | .none => 0
  | .illegalCommand => 1
  | .badPhase => 2
  | .trainOverflow => 3

/-- The code of a data error in STATUS[7:4] (R206). -/
def TxnErr.code : TxnErr → BitVec 4
  | .none => 0
  | .unknownSymbol => 1
  | .invalidBitToken => 2
  | .truncatedStream => 3
  | .emptyModel => 4
  | .outputOverflow => 5

/-- DROPPED as STATUS shows it: while a command runs the value from before it was taken (R70, R236), during the initialisation
its reset value (R232), and otherwise the sticky bit itself (R28, R201; log 7). -/
def State.shownDropped (s : State) : Bool :=
  match s.activity with
  | .idle => s.dropped
  | .running _ old _ => old
  | .initialising _ => false

/-- The STATUS register (R23): reserved 31:13, DROPPED 12, CMD_ERR 11:8, TXN_ERR 7:4, RES_OK 3, PHASE 2:1, BUSY 0. -/
def State.statusWord (s : State) : Word :=
  ((0 : BitVec 19) ++ BitVec.ofBool s.shownDropped ++ s.cmdErr.code ++ s.txnErr.code ++ BitVec.ofBool s.resOk ++ s.phase.code
    ++ BitVec.ofBool s.busy).cast rfl

/-- commit() (R156): OUT_LEN and RES_OK from the transaction's outcome. -/
def State.commit (s : State) : State :=
  if s.txnErr = .none then { s with outLen := s.workLen, resOk := true } else { s with outLen := 0, resOk := false }

end Sys2Proof.Machine
end

