-- ==== Sys2Proof/Machine/Bus.lean ====
section
/-! DEFINITION. The register window and the order of events (20_memory.md R60 to R71): reading and writing registers, taking
and dropping commands, serving the host's actions, and what happens next. -/

namespace Sys2Proof.Machine

/-! ## Reading the window -/

/-- The window offset an access at a platform address reaches (R60): BASE + off reaches off, and no other address reaches the
block (log 13). -/
def windowOffset (addr : Nat) : Option Offset :=
  if Config.base ≤ addr ∧ addr < Config.base + 0x20000 then some (BitVec.ofNat 17 (addr - Config.base)) else none

/-- The offset an access acts at: bits [1:0] are not decoded (R62). -/
def alignedOffset (off : Offset) : Nat :=
  4 * (off.toNat / 4)

/-- B(i) of the OUT window (R67): OUTBUF[i] below OUT_LEN, and 0x00 from there on. -/
def State.outByte (s : State) (i : Nat) : Byte :=
  if i < s.outLen.toNat then s.outbuf.read i else 0

/-- The word OUTj (R66): four bytes, the lowest-numbered one least significant. -/
def State.outWord (s : State) (j : Nat) : Word :=
  (s.outByte (4 * j + 3) ++ s.outByte (4 * j + 2) ++ s.outByte (4 * j + 1) ++ s.outByte (4 * j)).cast rfl

/-- The word RES_CODEk (R68). -/
def State.resCodeWord (s : State) (k : Nat) : Word :=
  s.resCode.extractLsb' (32 * k) 32

/-- `MemRead(off, 4)` (R61 to R64, R66 to R68): the register map. CMD and the reserved offsets read 0. -/
def memRead (s : State) (off : Offset) : Word :=
  let a := alignedOffset off
  if a = 0x00004 then s.statusWord
  else if a = 0x00008 then s.nsym.zeroExtend 32
  else if a = 0x0000C then s.total
  else if a = 0x00010 then s.outLen.zeroExtend 32
  else if a = 0x00014 then s.resLen.zeroExtend 32
  else if 0x00020 ≤ a ∧ a ≤ 0x0003C then s.resCodeWord ((a - 0x00020) / 4)
  else if 0x10000 ≤ a then s.outWord ((a - 0x10000) / 4)
  else 0

/-! ## Writing the window -/

/-- A CMD write is taken (R65, R202): BUSY becomes 1, and the word and the value STATUS goes on showing for DROPPED are held
until the command completes; how long that takes is the next free draw of T_BUSY (log 2, log 7, log 16). -/
def State.takeCommand (s : State) (w : Word) : State :=
  { s with activity := .running w s.dropped (Config.tBusy s.draws), draws := s.draws + 1 }

/-- `MemWrite(off, 4, v)` (R63 to R65, R201): only a write to CMD has an effect; it is dropped while BUSY = 1 and taken
otherwise. -/
def memWrite (s : State) (off : Offset) (v : Word) : State :=
  if alignedOffset off = 0 then (if s.busy then s.dropWrite else s.takeCommand v) else s

/-! ## Reset and the host -/

/-- RST asserted and released (R230 to R232): a running command and an open transaction are abandoned, every register takes its
reset value, and the block initialises for the next free draw of T_INIT. The host's side goes on (log 4, log 5). -/
def State.hardReset (s : State) : State :=
  { State.reset with
    activity := .initialising (Config.tInit s.draws)
    draws := s.draws + 1
    host := s.host
    readLog := s.readLog }

/-- READOUT n (R92): the OUT window words 0 to ceil(n/4) - 1; the window has 16384 of them (log 17). -/
def readout (n : Nat) : List HostAction :=
  (List.range (min 16384 ((n + 3) / 4))).map (fun j => .read (BitVec.ofNat 17 (0x10000 + 4 * j)))

/-- The block serves the host's next action, if there is one (R71). -/
def serveHost (s : State) : State :=
  match s.host with
  | [] => s
  | .read off :: rest => { s with host := rest, readLog := memRead s off :: s.readLog }
  | .write off v :: rest => memWrite { s with host := rest } off v
  | .wait :: rest => if s.busy then s else { s with host := rest }
  | .readout :: rest => { s with host := readout (s.readLog.headD 0).toNat ++ rest }
  | .rst :: rest => State.hardReset { s with host := rest }

/-! ## What happens next -/

/-- What a step does: run a taken and decoded command to completion, or settle in a state with no command run. -/
inductive Event where
  | execute (i : Instr) (s : State)
  | settled (s : State)
  deriving DecidableEq, Repr

/-- The next event. Idle, the block serves the host. Busy, it serves the host (reads see the old values, R70) until the free
draw is used up; then a running command completes (R202: an illegal word is rejected, a legal one executes) or the
initialisation ends (R232). -/
def nextEvent (s : State) : Event :=
  match s.activity with
  | .idle => .settled (serveHost s)
  | .initialising 0 => .settled s.release
  | .initialising (n + 1) => .settled (serveHost { s with activity := .initialising n })
  | .running w _ 0 =>
    match decode w with
    | .ok i => .execute i s.release
    | .error _ => .settled (s.release.raiseCmdError .illegalCommand)
  | .running w old (n + 1) => .settled (serveHost { s with activity := .running w old n })

/-- The taken command word becomes the one with bits `w`, completing in the very next step. -/
def loadCommand (s : State) (nbits w : Nat) : State :=
  { s with activity := .running (tableWord nbits w) s.dropped 0 }

end Sys2Proof.Machine
end

