-- ==== Sys2Proof/Machine/Heap.lean ====
section
/-! DEFINITION. The priority queue of BUILD (41_build.md R123, R127, R128): a binary min-heap of node indices. -/

namespace Sys2Proof.Machine

/-- `less(a, b)` (R123): by weight, then by node index. -/
def TreeBuilder.less (b : TreeBuilder) (x y : NodeIdx) : Bool :=
  decide ((b.nodeAt x).weight < (b.nodeAt y).weight)
    || (decide ((b.nodeAt x).weight = (b.nodeAt y).weight) && decide (x < y))

/-- The loop of heap_push (R127), from position `i`; the index falls at each pass, so `i` passes are enough. -/
def siftUp : Nat → Nat → TreeBuilder → TreeBuilder
  | 0, _, b => b
  | fuel + 1, i, b =>
    if i = 0 then b
    else if b.less (b.heapAt i) (b.heapAt ((i - 1) / 2)) then
      siftUp fuel ((i - 1) / 2) (b.swapHeap i ((i - 1) / 2))
    else b

/-- heap_push(x) (R127). -/
def heapPush (x : NodeIdx) (b : TreeBuilder) : TreeBuilder :=
  siftUp b.hsize.toNat b.hsize.toNat { b.setHeap b.hsize.toNat x with hsize := b.hsize + 1 }

/-- The child the loop of heap_pop moves to (R128): the least of HEAP[i] and its children below HSIZE, `i` itself if none is
less. -/
def leastChild (b : TreeBuilder) (i : Nat) : Nat :=
  let m := if 2 * i + 1 < b.hsize.toNat ∧ b.less (b.heapAt (2 * i + 1)) (b.heapAt i) then 2 * i + 1 else i
  if 2 * i + 2 < b.hsize.toNat ∧ b.less (b.heapAt (2 * i + 2)) (b.heapAt m) then 2 * i + 2 else m

/-- The loop of heap_pop (R128), from position `i`; the index rises at each pass and stays below HSIZE, so HSIZE passes are
enough. -/
def siftDown : Nat → Nat → TreeBuilder → TreeBuilder
  | 0, _, b => b
  | fuel + 1, i, b =>
    if leastChild b i = i then b
    else siftDown fuel (leastChild b i) (b.swapHeap i (leastChild b i))

/-- heap_pop() (R128): the least entry and the heap without it. -/
def heapPop (b : TreeBuilder) : NodeIdx × TreeBuilder :=
  let b' := { b with hsize := b.hsize - 1 }
  if b'.hsize = 0 then (b.heapAt 0, b')
  else (b.heapAt 0, siftDown b'.hsize.toNat 0 (b'.setHeap 0 (b'.heapAt b'.hsize.toNat)))

end Sys2Proof.Machine
end

