-- ==== Sys2Proof/Machine/Build.lean ====
section
/-! DEFINITION. BUILD (41_build.md R120): leaf creation, the merge loop, the root, and the code table. -/

namespace Sys2Proof.Machine

/-- NODE[i] <- a leaf (R120, R121): IS_LEAF, SYM and WEIGHT are written, LEFT and RIGHT are not (log 14). -/
def TreeBuilder.writeLeaf (b : TreeBuilder) (i : NodeIdx) (x : Sym) (w : Count) : TreeBuilder :=
  b.setNode i { b.nodeAt i with isLeaf := true, sym := x, weight := w }

/-- NODE[i] <- an internal node (R120, R125): IS_LEAF, WEIGHT, LEFT and RIGHT are written, SYM is not (log 14). -/
def TreeBuilder.writeInternal (b : TreeBuilder) (i : NodeIdx) (w : Count) (l r : NodeIdx) : TreeBuilder :=
  b.setNode i { b.nodeAt i with isLeaf := false, weight := w, left := l, right := r }

/-- Leaf creation (R121): one leaf per symbol of the list with a non-zero count, in the list's order, from index `n` on;
answers the store and the number of leaves so far. -/
def makeLeaves (freq : Sym → Count) : List Sym → Nat → TreeBuilder → TreeBuilder × Nat
  | [], n, b => (b, n)
  | x :: rest, n, b =>
    if 0 < freq x then makeLeaves freq rest (n + 1) (b.writeLeaf (BitVec.ofNat 9 n) x (freq x))
    else makeLeaves freq rest n b

/-- Heap fill (R124): heap_push of 0, 1, ..., n - 1 in that order. -/
def fillHeap (n : Nat) (b : TreeBuilder) : TreeBuilder :=
  (List.range n).foldl (fun b k => heapPush (BitVec.ofNat 9 k) b) b

/-- One pass of the merge loop (R125): the least node becomes the left child, the next least the right child. -/
def mergeStep (b : TreeBuilder) : TreeBuilder :=
  let (x, b1) := heapPop b
  let (y, b2) := heapPop b1
  let b3 := b2.writeInternal b2.next ((b2.nodeAt x).weight + (b2.nodeAt y).weight) x y
  let b4 := heapPush b3.next b3
  { b4 with next := b4.next + 1 }

/-- The merge loop (R125): while HSIZE > 1; each pass lowers HSIZE by one, so HSIZE passes are enough. -/
def mergeLoop : Nat → TreeBuilder → TreeBuilder
  | 0, b => b
  | fuel + 1, b => if 1 < b.hsize then mergeLoop fuel (mergeStep b) else b

/-- walk(x, l, bits) (R130): a leaf's codeword is the path to it, 0 for left and 1 for right. The first argument bounds the
depth: a path has at most 255 steps (R12), so 256 levels are enough. -/
def walk (b : TreeBuilder) : Nat → NodeIdx → Nat → CodeBits → CodeTable → CodeTable
  | 0, _, _, _, t => t
  | fuel + 1, x, l, bits, t =>
    if (b.nodeAt x).isLeaf then t.setCode (b.nodeAt x).sym (BitVec.ofNat 8 l) bits
    else
      walk b fuel (b.nodeAt x).right (l + 1) (bits ||| (1 <<< l))
        (walk b fuel (b.nodeAt x).left (l + 1) bits t)

/-- single_leaf_code() (R131): the one symbol gets the codeword "0". -/
def singleLeafCode (b : TreeBuilder) (t : CodeTable) : CodeTable :=
  t.setCode (b.nodeAt 0).sym 1 0

/-- What the Tree Builder answers: its store, the number of leaves, and the root. -/
structure BuiltTree where
  tb : TreeBuilder
  n : Nat
  root : NodeIdx
  deriving DecidableEq, Repr

/-- The Tree Builder (R121 to R126): from the counts to the store, the number of leaves and the root; the root of an empty
table is 0 (R122). -/
def buildTree (freq : Sym → Count) (b : TreeBuilder) : BuiltTree :=
  let (b1, n) := makeLeaves freq allSyms 0 b
  let b2 := { b1 with next := BitVec.ofNat 9 n, hsize := 0 }
  if n = 0 then ⟨b2, 0, 0⟩
  else
    let (r, b3) := heapPop (mergeLoop n (fillHeap n b2))
    ⟨b3, n, r⟩

/-- The Code Table Deriver (R130, R131, R133): every entry cleared, then the entries of the symbols in the tree written. -/
def deriveCodes (t : BuiltTree) : CodeTable :=
  if t.n = 0 then CodeTable.empty
  else if t.n = 1 then singleLeafCode t.tb CodeTable.empty
  else walk t.tb 256 t.root 0 0 CodeTable.empty

/-- The pseudocode of R120: the tree, the code table, NSYM and ROOT (R134), and PHASE <- READY as the last effect. -/
def State.buildModel (s : State) : State :=
  let t := buildTree s.freqOf s.tb
  { s with tb := t.tb, ct := deriveCodes t, nsym := BitVec.ofNat 9 t.n, root := t.root, phase := .ready }

/-- BUILD (R120). -/
def execBuild (s : State) : Result :=
  accept .build State.buildModel s

end Sys2Proof.Machine
end

