-- ==== Sys2Proof/Machine/Operands.lean ====
section
/-! DEFINITION. The operand forms of the commands (30_encoding.md R82, R88): a symbol is OPD itself, and a bit token is a byte
that stands for one bit. -/

namespace Sys2Proof.Machine

/-- The symbol operand of TRAIN_SYM, GET_CODE and ENC_SYM: OPD, unsigned, with no extension and no scaling (R82). -/
def symbolOperand (opd : Byte) : Sym :=
  opd

/-- The bit a token stands for (R88): 0x30 is 0, 0x31 is 1, and every other byte is no token. -/
def tokenBit (t : Byte) : Option Bool :=
  if t = 0x30 then some false else if t = 0x31 then some true else none

/-- The token of a bit (R88; R153: `0x30 + bit`). -/
def bitToken (b : Bool) : Byte :=
  0x30 + BitVec.zeroExtend 8 (BitVec.ofBool b)

end Sys2Proof.Machine
end

