-- ==== Sys2Proof/Machine/Encode.lean ====
section
/-! DEFINITION. GET_CODE and the encode transaction (42_encode.md R151 to R156). -/

namespace Sys2Proof.Machine

/-- The pseudocode of R151: RES_LEN and RES_CODE from the code table. -/
def State.lookUp (x : Sym) (s : State) : State :=
  { s with resLen := s.ct.lenOf x, resCode := (s.ct.bitsOf x).zeroExtend 256 }

/-- GET_CODE x (R151). -/
def execGetCode (opd : Byte) (s : State) : Result :=
  accept (.getCode opd) (State.lookUp (symbolOperand opd)) s

/-- What ENC_BEGIN and DEC_BEGIN share (R152, R171): WORK_LEN, OUT_LEN, TXN_ERR and RES_OK become 0. -/
def State.beginTxn (s : State) : State :=
  { s with workLen := 0, outLen := 0, txnErr := .none, resOk := false }

/-- ENC_BEGIN (R152). -/
def execEncBegin (s : State) : Result :=
  accept .encBegin (fun s => { s.beginTxn with phase := .enc }) s

/-- The serial shift-out of a codeword of `l` bits into OUTBUF from position `k` on, c_0 first (R153, R154). -/
def shiftOut (m : Memory) (k : Nat) (bits : CodeBits) (l : Nat) : Memory :=
  (List.range l).foldl (fun m i => m.write (k + i) (bitToken (bits.getLsbD i))) m

/-- The pseudocode of R153 once TXN_ERR is known to be 0: UNKNOWN_SYMBOL, then OUTPUT_OVERFLOW, then the tokens. -/
def State.appendCode (x : Sym) (s : State) : Except TxnErr State :=
  let l := (s.ct.lenOf x).toNat
  if l = 0 then .error .unknownSymbol
  else if Config.outCap < s.workLen.toNat + l then .error .outputOverflow
  else .ok { s with
    outbuf := shiftOut s.outbuf s.workLen.toNat (s.ct.bitsOf x) l
    workLen := s.workLen + BitVec.ofNat 17 l }

/-- ENC_SYM x (R153). -/
def execEncSym (opd : Byte) (s : State) : Result :=
  accept (.encSym opd) (transact (State.appendCode (symbolOperand opd))) s

/-- ENC_END (R155): commit, then PHASE <- READY. -/
def execEncEnd (s : State) : Result :=
  accept .encEnd (fun s => { s.commit with phase := .ready }) s

end Sys2Proof.Machine
end

