-- ==== Sys2Proof/Machine/Decoder.lean ====
section
/-! DEFINITION. The decode transaction, the tree traverser (43_decode.md R171 to R175). -/

namespace Sys2Proof.Machine

/-- DEC_BEGIN (R171): the shared start of a transaction, then CURSOR <- ROOT and PHASE <- DEC. -/
def execDecBegin (s : State) : Result :=
  accept .decBegin (fun s => { s.beginTxn with cursor := s.root, phase := .dec }) s

/-- emit(v) (R174): OUTPUT_OVERFLOW when OUTBUF is full, else v is written at WORK_LEN. (In a state with WORK_LEN above
OUT_CAP, which R37 rules out, it is full too; log 10.) -/
def State.emit (v : Byte) (s : State) : Except TxnErr State :=
  if Config.outCap ≤ s.workLen.toNat then .error .outputOverflow
  else .ok { s with outbuf := s.outbuf.write s.workLen.toNat v, workLen := s.workLen + 1 }

/-- single_symbol_step(b) (R173), for NSYM = 1: each '0' decodes to the one symbol, and a '1' is no token. -/
def State.singleSymbolStep (b : Bool) (s : State) : Except TxnErr State :=
  if b then .error .invalidBitToken else s.emit (s.tb.nodeAt s.root).sym

/-- tree_step(b) (R174), for NSYM >= 2: move; on a leaf emit its symbol and go back to ROOT in the same step. -/
def State.treeStep (b : Bool) (s : State) : Except TxnErr State :=
  let c := s.tb.child s.cursor b
  if (s.tb.nodeAt c).isLeaf then
    match s.emit (s.tb.nodeAt c).sym with
    | .ok t => .ok { t with cursor := t.root }
    | .error e => .error e
  else .ok { s with cursor := c }

/-- The pseudocode of R172 once TXN_ERR is known to be 0: EMPTY_MODEL before the token check (R208). -/
def State.takeToken (t : Byte) (s : State) : Except TxnErr State :=
  if s.nsym = 0 then .error .emptyModel
  else
    match tokenBit t with
    | none => .error .invalidBitToken
    | some b => if s.nsym = 1 then s.singleSymbolStep b else s.treeStep b

/-- DEC_BIT t (R172). -/
def execDecBit (t : Byte) (s : State) : Result :=
  accept (.decBit t) (transact (State.takeToken t)) s

/-- The check of R175: TRUNCATED_STREAM when the stream ended inside a codeword, unless an error is already latched. -/
def State.checkTruncated (s : State) : State :=
  if s.txnErr = .none ∧ 2 ≤ s.nsym ∧ s.cursor ≠ s.root then s.raiseTxnError .truncatedStream else s

/-- DEC_END (R175): the truncation check, commit, then PHASE <- READY. -/
def execDecEnd (s : State) : Result :=
  accept .decEnd (fun s => { s.checkTruncated.commit with phase := .ready }) s

end Sys2Proof.Machine
end

