-- ==== Sys2Proof/Machine/Train.lean ====
section
/-! DEFINITION. CLEAR and TRAIN_SYM (40_train.md R101, R105). -/

namespace Sys2Proof.Machine

/-- The pseudocode of R101: model, results and flags cleared; NODE, HEAP and OUTBUF keep their contents. -/
def State.clearModel (s : State) : State :=
  { s with
    freq := Vector.replicate 256 0
    ct := CodeTable.empty
    total := 0
    nsym := 0
    root := 0
    cursor := 0
    tb := { s.tb with hsize := 0, next := 0 }
    workLen := 0
    outLen := 0
    resLen := 0
    resCode := 0
    phase := .train
    resOk := false
    txnErr := .none
    dropped := false }

/-- CLEAR (R101). -/
def execClear (s : State) : Result :=
  accept .clear State.clearModel s

/-- The pseudocode of R105: TRAIN_OVERFLOW when TOTAL is 0xFFFF_FFFF, else FREQ[x] and TOTAL each go up by one. -/
def State.countSymbol (x : Sym) (s : State) : State :=
  if s.total = 0xFFFFFFFF then s.raiseCmdError .trainOverflow
  else { s.setFreq x (s.freqOf x + 1) with total := s.total + 1 }

/-- TRAIN_SYM x (R105). -/
def execTrainSym (opd : Byte) (s : State) : Result :=
  accept (.trainSym opd) (State.countSymbol (symbolOperand opd)) s

end Sys2Proof.Machine
end

