-- ==== Sys2Proof/Machine/Dispatch.lean ====
section
/-! DEFINITION. One arm per command of the opcode map (30_encoding.md R83). `exec` runs a taken, decoded command: the phase
check of 60_exceptions.md R202 and then the command's pseudocode. -/

namespace Sys2Proof.Machine

def exec (i : Instr) (s : State) : Host.Outcome State Fault Refusal :=
  match i with
  | .clear => Sys2Proof.Machine.execClear s
  | .trainSym x => Sys2Proof.Machine.execTrainSym x s
  | .build => Sys2Proof.Machine.execBuild s
  | .getCode x => Sys2Proof.Machine.execGetCode x s
  | .encBegin => Sys2Proof.Machine.execEncBegin s
  | .encSym x => Sys2Proof.Machine.execEncSym x s
  | .encEnd => Sys2Proof.Machine.execEncEnd s
  | .decBegin => Sys2Proof.Machine.execDecBegin s
  | .decBit t => Sys2Proof.Machine.execDecBit t s
  | .decEnd => Sys2Proof.Machine.execDecEnd s

end Sys2Proof.Machine
end

