-- ==== Sys2Proof/Machine/Step.lean ====
section
/-! DEFINITION. One step of the machine (10_state.md R20; 20_memory.md R70, R71). -/

namespace Sys2Proof.Machine

/-- One step: the next event; a command that completes is run by `exec` in the state with BUSY back at 0, which is one
indivisible step (R18, R70). -/
def step (s : State) : Host.Outcome State Fault Refusal :=
  match nextEvent s with
  | .execute i t => exec i t
  | .settled t => .next t

/-- `s` with the command word of bits `w` taken, and completing in the very next step (log 6). -/
def State.withFetchWord (s : State) (nbits w : Nat) : State :=
  loadCommand s nbits w

end Sys2Proof.Machine
end

