-- ==== Sys2Proof/Machine/Program.lean ====
section
/-! DEFINITION. Host scripts: the pseudo-instructions of 30_encoding.md R96, one per operation of the source's API, and the
host's boot order (70_reset_and_hazards.md R233). -/

namespace Sys2Proof.Machine

/-- A command written to CMD, and WAIT (R92, R235). -/
def issue (i : Instr) : List HostAction :=
  [.write 0 (encode i), .wait]

/-- CONSTRUCT "x1...xk" (R96). -/
def construct (xs : List Sym) : List HostAction :=
  issue .clear ++ xs.flatMap (fun x => issue (.trainSym x)) ++ issue .build

/-- READ RES_LEN; READ RES_CODE0 ... READ RES_CODE7 (R96, R61). -/
def readCode : List HostAction :=
  .read 0x00014 :: (List.range 8).map (fun k => .read (BitVec.ofNat 17 (0x00020 + 4 * k)))

/-- GETCODE s (R96). -/
def getCodeScript (x : Sym) : List HostAction :=
  issue (.getCode x) ++ readCode

/-- READ STATUS; READ OUT_LEN; READOUT OUT_LEN (R96). -/
def readResult : List HostAction :=
  [.read 0x00004, .read 0x00010, .readout]

/-- ENCODE "x1...xk" (R96). -/
def encodeScript (xs : List Sym) : List HostAction :=
  issue .encBegin ++ xs.flatMap (fun x => issue (.encSym x)) ++ issue .encEnd ++ readResult

/-- DECODE "t1...tk" (R96). -/
def decodeScript (ts : List Byte) : List HostAction :=
  issue .decBegin ++ ts.flatMap (fun t => issue (.decBit t)) ++ issue .decEnd ++ readResult

/-- The host's boot order (R233): release RST, wait for BUSY = 0, CLEAR and wait (optional there), train and build. -/
def bootScript (xs : List Sym) : List HostAction :=
  [.rst, .wait] ++ construct xs

end Sys2Proof.Machine
end

