-- ==== Sys2Proof/Safety.lean ====
section
/-! DEFINITION. What a safe run of the block keeps, in the terms the claims use: the invariants the spec states of its state
(10_state.md R29 to R45; 40_train.md R106; 43_decode.md R176), runs of several commands, and codewords as bit lists. -/

namespace Sys2Proof.Machine

/-! ## Runs of commands -/

/-- Commands executed one after the other, each to completion (R71). -/
def execAll : List Instr → State → Result
  | [], s => .next s
  | i :: rest, s =>
    match exec i s with
    | .next t => execAll rest t
    | .fault f => .fault f
    | .refused r => .refused r

/-- An encode transaction (R150): ENC_BEGIN, one ENC_SYM per input symbol, ENC_END. -/
def encodeTxn (xs : List Sym) : List Instr :=
  .encBegin :: xs.map .encSym ++ [.encEnd]

/-- A decode transaction (R170): DEC_BEGIN, one DEC_BIT per token, DEC_END. -/
def decodeTxn (ts : List Byte) : List Instr :=
  .decBegin :: ts.map .decBit ++ [.decEnd]

/-- The committed output: the bytes of OUTBUF below OUT_LEN (R37, R67). -/
def State.committed (s : State) : List Byte :=
  (List.range s.outLen.toNat).map s.outbuf.read

/-! ## Codewords -/

/-- The codeword of a symbol, c_0 first (R17, R31); empty when it has none. -/
def CodeTable.codeword (t : CodeTable) (x : Sym) : List Bool :=
  (List.range (t.lenOf x).toNat).map (t.bitsOf x).getLsbD

/-- The bit tokens of an input, codewords in input order and c_0 first (R154). -/
def CodeTable.tokens (t : CodeTable) (xs : List Sym) : List Byte :=
  (xs.flatMap t.codeword).map bitToken

/-- Where a path of bits leads from node `x`; none if it would leave a leaf (R130). -/
def TreeBuilder.follow (b : TreeBuilder) : List Bool → NodeIdx → Option NodeIdx
  | [], x => some x
  | bit :: rest, x => if (b.nodeAt x).isLeaf then none else b.follow rest (b.child x bit)

/-! ## The heap -/

/-- The entries in use: HEAP[0] to HEAP[HSIZE - 1] (R34). -/
def TreeBuilder.entries (b : TreeBuilder) : List NodeIdx :=
  (List.range b.hsize.toNat).map b.heapAt

/-- Every entry is not less than its parent: the order that R127 and R128 keep. -/
def TreeBuilder.heapOrdered (b : TreeBuilder) : Prop :=
  ∀ i, 0 < i → i < b.hsize.toNat → b.less (b.heapAt i) (b.heapAt ((i - 1) / 2)) = false

/-! ## Invariants -/

/-- R32, R106: TOTAL is the sum of the counts. -/
def State.countsAgree (s : State) : Prop :=
  s.total.toNat = (allSyms.map (fun x => (s.freqOf x).toNat)).sum

/-- R37, R39: WORK_LEN and OUT_LEN range over 0 to OUT_CAP; OUTBUF's list is in canonical form and within OUT_CAP. -/
def State.bufferWf (s : State) : Prop :=
  s.workLen.toNat ≤ Config.outCap ∧ s.outLen.toNat ≤ Config.outCap ∧ s.outbuf.wf = true ∧ s.outbuf.inCap = true

/-- R25, R37, R238: without a valid result OUT_LEN is 0, and a valid result stands only in READY with no data error. -/
def State.resultWf (s : State) : Prop :=
  (s.resOk = false → s.outLen = 0) ∧ (s.resOk = true → s.phase = .ready ∧ s.txnErr = .none)

/-- R29, R43, R101, R134: in TRAIN there is no model and no result. -/
def State.trainWf (s : State) : Prop :=
  s.phase = .train →
    s.nsym = 0 ∧ s.root = 0 ∧ s.cursor = 0 ∧ s.tb.next = 0 ∧ s.ct = CodeTable.empty ∧ s.workLen = 0 ∧ s.outLen = 0 ∧
      s.resLen = 0 ∧ s.resCode = 0 ∧ s.resOk = false ∧ s.txnErr = .none

/-- R31, R40: bits at and above a codeword's length are 0, in the code table and in RES_CODE. -/
def State.codeBitsWf (s : State) : Prop :=
  (∀ x i, (s.ct.lenOf x).toNat ≤ i → (s.ct.bitsOf x).getLsbD i = false) ∧
    (∀ i, s.resLen.toNat ≤ i → s.resCode.getLsbD i = false)

/-- R34: HSIZE is 0 before and after every BUILD. -/
def State.heapIdle (s : State) : Prop :=
  s.tb.hsize = 0

/-- R41 with R36, R121, R126 and R135: the arena holds a well-formed tree over the symbols present. -/
structure State.TreeWf (s : State) : Prop where
  nsym_le : s.nsym.toNat ≤ 256
  leaf : ∀ k : NodeIdx, k.toNat < s.nsym.toNat →
    (s.tb.nodeAt k).isLeaf = true ∧ (s.tb.nodeAt k).weight = s.freqOf (s.tb.nodeAt k).sym ∧ 0 < (s.tb.nodeAt k).weight
  leaf_order : ∀ j k : NodeIdx, j < k → k.toNat < s.nsym.toNat → (s.tb.nodeAt j).sym < (s.tb.nodeAt k).sym
  leaf_of_present : ∀ x : Sym, 0 < s.freqOf x → ∃ k : NodeIdx, k.toNat < s.nsym.toNat ∧ (s.tb.nodeAt k).sym = x
  internal : ∀ k : NodeIdx, s.nsym.toNat ≤ k.toNat → k.toNat < 2 * s.nsym.toNat - 1 →
    (s.tb.nodeAt k).isLeaf = false ∧ (s.tb.nodeAt k).left < k ∧ (s.tb.nodeAt k).right < k ∧
      (s.tb.nodeAt k).weight.toNat =
        (s.tb.nodeAt (s.tb.nodeAt k).left).weight.toNat + (s.tb.nodeAt (s.tb.nodeAt k).right).weight.toNat
  one_parent : ∀ k : NodeIdx, k.toNat + 1 < 2 * s.nsym.toNat - 1 →
    ∃! p : NodeIdx × Bool, s.nsym.toNat ≤ p.1.toNat ∧ p.1.toNat < 2 * s.nsym.toNat - 1 ∧ s.tb.child p.1 p.2 = k
  root : s.root.toNat = 2 * s.nsym.toNat - 2
  next : s.tb.next.toNat = 2 * s.nsym.toNat - 1

/-- R130, R131, R133: the symbols with a codeword are those present; a codeword is the path from ROOT to the symbol's leaf, or
"0" in a single-symbol model. -/
structure State.CodesWf (s : State) : Prop where
  present : ∀ x : Sym, s.ct.lenOf x = 0 ↔ s.freqOf x = 0
  single : s.nsym = 1 → ∀ x : Sym, s.freqOf x ≠ 0 → s.ct.lenOf x = 1 ∧ s.ct.bitsOf x = 0
  path : 2 ≤ s.nsym → ∀ x : Sym, s.freqOf x ≠ 0 →
    ∃ k : NodeIdx, k.toNat < s.nsym.toNat ∧ (s.tb.nodeAt k).sym = x ∧ s.tb.follow (s.ct.codeword x) s.root = some k

/-- R41 in the phases it speaks of. -/
def State.treeInv (s : State) : Prop :=
  s.phase ≠ .train → s.TreeWf

/-- R130, R131 and R133 after BUILD. -/
def State.codesInv (s : State) : Prop :=
  s.phase ≠ .train → s.CodesWf

/-- R176: in DEC with NSYM >= 2 and no data error, CURSOR is an internal node. -/
def State.cursorInv (s : State) : Prop :=
  s.phase = .dec → 2 ≤ s.nsym → s.txnErr = .none →
    s.nsym.toNat ≤ s.cursor.toNat ∧ s.cursor.toNat < 2 * s.nsym.toNat - 1

/-! ## What the unspecified elements may not reach (R45) -/

/-- Two nodes agree in every field their kind uses (R33). -/
def Node.agrees (a b : Node) : Prop :=
  a.isLeaf = b.isLeaf ∧ a.weight = b.weight ∧
    (if a.isLeaf then a.sym = b.sym else a.left = b.left ∧ a.right = b.right)

/-- Two stores agree on the nodes of a tree with `n` leaves. -/
def TreeBuilder.agrees (n : Nat) (a b : TreeBuilder) : Prop :=
  ∀ k : NodeIdx, k.toNat < 2 * n - 1 → Node.agrees (a.nodeAt k) (b.nodeAt k)

/-- The states differ at most in elements R43 leaves unspecified and no rule has written since: HEAP, the nodes outside the
built tree, the fields a node's kind does not use, and OUTBUF above what the transaction wrote. -/
def State.agrees (s t : State) : Prop :=
  t = { s with tb := t.tb, outbuf := t.outbuf } ∧ t.tb.hsize = s.tb.hsize ∧ t.tb.next = s.tb.next ∧
    (∀ i, i < max s.workLen.toNat s.outLen.toNat → t.outbuf.read i = s.outbuf.read i) ∧
    (s.phase ≠ .train → TreeBuilder.agrees s.nsym.toNat s.tb t.tb)

/-! ## Phases -/

/-- The table of R46: the phase a command leads to from a phase in which it is legal; none where it is not. -/
def phaseTable : Instr → Phase → Option Phase
  | .clear, _ => some .train
  | .trainSym _, .train => some .train
  | .build, .train => some .ready
  | .getCode _, .ready => some .ready
  | .encBegin, .ready => some .enc
  | .encSym _, .enc => some .enc
  | .encEnd, .enc => some .ready
  | .decBegin, .ready => some .dec
  | .decBit _, .dec => some .dec
  | .decEnd, .dec => some .ready
  | _, _ => none

/-! ## The merge order (R125, R129) -/

/-- Node `j` is in the queue when node `k` is created: it exists, and no node created before `k` took it as a child. -/
def TreeBuilder.queued (b : TreeBuilder) (n : Nat) (k j : NodeIdx) : Prop :=
  j < k ∧ ∀ p : NodeIdx, n ≤ p.toNat → p < k → (b.nodeAt p).left ≠ j ∧ (b.nodeAt p).right ≠ j

/-- Prefix-freeness of a code over the symbols in `present` (R136). -/
def prefixFree (present : Sym → Prop) (code : Sym → List Bool) : Prop :=
  ∀ x y, present x → present y → x ≠ y → ¬ code x <+: code y

/-- R136 after BUILD. -/
def State.prefixFreeInv (s : State) : Prop :=
  s.phase ≠ .train → prefixFree (fun x => s.freqOf x ≠ 0) s.ct.codeword

/-- The weighted length of a code: the sum over symbols of length times count (R137). -/
def State.weightedLength (s : State) (len : Sym → Nat) : Nat :=
  (allSyms.map (fun x => len x * (s.freqOf x).toNat)).sum

end Sys2Proof.Machine
end

