-- ==== Sys2Proof/Certificates/Slice0/Obligations.lean ====
section
/-! DEFINITION. The statements for the provers, in the order of OBLIGATIONS.json. Each docstring names the rule of spec/ it
formalises; `log n` is notes/assumptions/n.md. R41, R45, R46, R89, R106, R107, R129, R135, R136, R138, R154, R157, R176, R177,
R178 and R238 are marked by the spec as its own inferences (and R137 as partly from general knowledge): a statement about one
has basis 'derived'. A step count stands for T_BUSY or T_INIT (log 2, log 3), and the host's script is the model's (log 4). -/

open Sys2Proof Sys2Proof.Machine

/-! ## Command words (30_encoding.md) -/

/-- One word of each command, written out from R83's opcode map, and words R85 makes illegal. -/
def Obligations.WordsOfTheOpcodeMapDecode : Prop :=
  decode 0x01000000 = .ok .clear ∧ decode 0x02000061 = .ok (.trainSym 0x61) ∧ decode 0x03000000 = .ok .build ∧
    decode 0x040000FF = .ok (.getCode 0xFF) ∧ decode 0x05000000 = .ok .encBegin ∧
    decode 0x06000063 = .ok (.encSym 0x63) ∧ decode 0x07000000 = .ok .encEnd ∧ decode 0x08000000 = .ok .decBegin ∧
    decode 0x09000031 = .ok (.decBit 0x31) ∧ decode 0x0A000000 = .ok .decEnd ∧
    decode 0x00000000 = .error .reservedOpcode ∧ decode 0x0B000000 = .error .reservedOpcode ∧
    decode 0x02010061 = .error .reservedFieldNotZero ∧ decode 0x01000001 = .error .operandNotZero

/-- R83, R90: decoding and encoding agree in both directions, for every command and every word. -/
def Obligations.DecodeAndEncodeAgree : Prop :=
  (∀ i : Instr, decode (encode i) = .ok i) ∧ ∀ (w : Word) (i : Instr), decode w = .ok i → encode i = w

/-- R85: a word is illegal exactly when OP is reserved, RSV is not 0, or an operand-less command has an operand; a taken illegal
word is rejected with ILLEGAL_COMMAND when it completes and has no other effect. -/
def Obligations.IllegalWordsAreRejected : Prop :=
  ∀ w : Word,
    ((∃ e, decode w = .error e) ↔
      w.extractLsb' 24 8 = 0x00 ∨ 0x0B ≤ w.extractLsb' 24 8 ∨ w.extractLsb' 8 16 ≠ 0 ∨
        (w.extractLsb' 24 8 ∈ [0x01, 0x03, 0x05, 0x07, 0x08, 0x0A] ∧ w.extractLsb' 0 8 ≠ 0)) ∧
    ∀ (s : State) (old : Bool), s.activity = .running w old 0 → (∃ e, decode w = .error e) →
      step s = .next { s with activity := .idle, cmdErr := .illegalCommand }

/-- R89: the legal words are the 4 x 256 operand forms and the six exact words, and no others. -/
def Obligations.LegalWordsAreCounted : Prop :=
  ∃ l : List Word, l.Nodup ∧ l.length = 4 * 256 + 6 ∧ ∀ w, w ∈ l ↔ ∃ i, decode w = .ok i

/-- R91: a listing's hexadecimal and decimal operands below 256 and its ASCII characters name the byte, for each of the four
commands with an operand; a line without an operand names each of the other six commands; a missing, superfluous or too large
operand and a character outside ASCII assemble to nothing. -/
def Obligations.ListingOperandsNameOneByte : Prop :=
  (∀ n, n < 256 →
    (∀ m : Mnemonic, m.takesOperand = true →
      assemble ⟨m, some (.hex n)⟩ = some (m.instr (BitVec.ofNat 8 n)) ∧
        assemble ⟨m, some (.dec n)⟩ = some (m.instr (BitVec.ofNat 8 n)))) ∧
  (∀ (m : Mnemonic) (c : Char), m.takesOperand = true → c.toNat < 128 →
    assemble ⟨m, some (.char c)⟩ = some (m.instr (BitVec.ofNat 8 c.toNat))) ∧
  (∀ m : Mnemonic, m.takesOperand = false → assemble ⟨m, none⟩ = some (m.instr 0)) ∧
  (∀ m : Mnemonic, m.takesOperand = true → assemble ⟨m, none⟩ = none) ∧
  (∀ (m : Mnemonic) (o : AsmOperand), m.takesOperand = false → assemble ⟨m, some o⟩ = none) ∧
  (∀ (m : Mnemonic) (n : Nat), 256 ≤ n → assemble ⟨m, some (.hex n)⟩ = none ∧ assemble ⟨m, some (.dec n)⟩ = none) ∧
  (∀ (m : Mnemonic) (c : Char), 128 ≤ c.toNat → assemble ⟨m, some (.char c)⟩ = none)

/-! ## The register window (20_memory.md) -/

/-- R60: the platform access BASE + off reaches window offset off, and no other platform address reaches the block. Holds for
every value of BASE (log 13). -/
def Obligations.PlatformWindowStandsAtBase : Prop :=
  (∀ off : Offset, windowOffset (Config.base + off.toNat) = some off) ∧
    ∀ a, a < Config.base ∨ Config.base + 0x20000 ≤ a → windowOffset a = none

/-- R62: offset bits [1:0] are not decoded, for reads and for writes. -/
def Obligations.LowOffsetBitsAreIgnored : Prop :=
  ∀ (s : State) (off : Offset) (v : Word),
    memRead s off = memRead s (off &&& 0x1FFFC) ∧ memWrite s off v = memWrite s (off &&& 0x1FFFC) v

/-- R63, R64: a write anywhere but CMD changes no state; CMD and the reserved offsets read 0. -/
def Obligations.OnlyCmdWritesHaveAnEffect : Prop :=
  (∀ (s : State) (off : Offset) (v : Word), 4 ≤ off → memWrite s off v = s) ∧
    ∀ (s : State) (off : Offset),
      off < 4 ∨ (0x00018 ≤ off ∧ off ≤ 0x0001F) ∨ (0x00040 ≤ off ∧ off ≤ 0x0FFFF) → memRead s off = 0

/-- R23 with the codes of R22, R204 and R206: the layout of STATUS, BUSY being 1 unless the block is idle (R24). Bit 12 is the
sticky bit when idle, its value from before the command while one runs (R70, R236), and 0 during the initialisation (R232). -/
def Obligations.StatusHasTheListedLayout : Prop :=
  ∀ s : State,
    ((memRead s 0x004).getLsbD 0 = true ↔ s.activity ≠ .idle) ∧
    ((memRead s 0x004).extractLsb' 1 2).toNat = (match s.phase with | .train => 0 | .ready => 1 | .enc => 2 | .dec => 3) ∧
    (memRead s 0x004).getLsbD 3 = s.resOk ∧
    ((memRead s 0x004).extractLsb' 4 4).toNat =
      (match s.txnErr with
        | .none => 0 | .unknownSymbol => 1 | .invalidBitToken => 2 | .truncatedStream => 3 | .emptyModel => 4
        | .outputOverflow => 5) ∧
    ((memRead s 0x004).extractLsb' 8 4).toNat =
      (match s.cmdErr with | .none => 0 | .illegalCommand => 1 | .badPhase => 2 | .trainOverflow => 3) ∧
    (memRead s 0x004).getLsbD 12 =
      (match s.activity with | .idle => s.dropped | .running _ old _ => old | .initialising _ => false) ∧
    (memRead s 0x004).extractLsb' 13 19 = 0

/-- R29, R32, R37, R40, R68: the result registers, with their reserved bits reading 0. -/
def Obligations.ResultRegistersReadTheirFields : Prop :=
  ∀ s : State,
    (memRead s 0x008).toNat = s.nsym.toNat ∧ memRead s 0x00C = s.total ∧ (memRead s 0x010).toNat = s.outLen.toNat ∧
    (memRead s 0x014).toNat = s.resLen.toNat ∧
    ∀ k i, k < 8 → i < 32 →
      (memRead s (BitVec.ofNat 17 (0x020 + 4 * k))).getLsbD i = s.resCode.getLsbD (32 * k + i)

/-- R66, R67: byte b of OUT word j is OUTBUF[4j + b] below OUT_LEN and 0 from there on, least significant byte first. R238: so
the whole window reads 0 while a transaction is open and after a failed one, where OUT_LEN is 0 by the invariant
`State.resultWf` (StepKeepsResultVisibility). -/
def Obligations.OutWindowPacksCommittedBytes : Prop :=
  (∀ (s : State) (j b : Nat), j < 16384 → b < 4 →
    (memRead s (BitVec.ofNat 17 (0x10000 + 4 * j))).extractLsb' (8 * b) 8 =
      if 4 * j + b < s.outLen.toNat then s.outbuf.read (4 * j + b) else 0) ∧
    ∀ (s : State) (off : Offset), s.resultWf → s.resOk = false → 0x10000 ≤ off → memRead s off = 0

/-- R76: a host read of any offset while the block is idle changes nothing of the block; the host gets the word. -/
def Obligations.ReadsHaveNoSideEffect : Prop :=
  ∀ (s : State) (off : Offset) (rest : List HostAction), s.activity = .idle → s.host = .read off :: rest →
    step s = .next { s with host := rest, readLog := memRead s off :: s.readLog }

/-! ## Taking and completing commands (20_memory.md, 60_exceptions.md, 70_reset_and_hazards.md) -/

/-- R202: a taken command whose word decodes is run by `exec` in the step in which it completes; all the step adds is that BUSY
goes back to 0. -/
def Obligations.CompletingStepRunsDecodedCommand : Prop :=
  ∀ (s : State) (w : Word) (old : Bool) (i : Instr), s.activity = .running w old 0 → decode w = .ok i →
    step s = exec i { s with activity := .idle }

/-- R65, R201: a CMD write while BUSY = 0 is taken, whatever the free draw of T_BUSY is (log 2): BUSY becomes 1, the word is
held, and every register goes on reading what it read before the command (R70, R236). While BUSY = 1 the write sets DROPPED
and changes nothing else, and the running command, or the initialisation (R232), goes on. -/
def Obligations.CmdWriteIsTakenOrDropped : Prop :=
  ∀ (s : State) (off : Offset) (v : Word) (rest : List HostAction), off < 4 → s.host = .write off v :: rest →
    (s.activity = .idle →
      ∃ n t, step s = .next t ∧
        t = { s with activity := .running v s.dropped n, draws := s.draws + 1, host := rest } ∧
        (∀ r : Offset, (r < 4 ∨ 8 ≤ r) → memRead t r = memRead s r) ∧ memRead t 0x004 = memRead s 0x004 ||| 1) ∧
    (∀ w old n, s.activity = .running w old (n + 1) →
      step s = .next { s with activity := .running w old n, dropped := true, host := rest }) ∧
    (∀ n, s.activity = .initialising (n + 1) →
      step s = .next { s with activity := .initialising n, dropped := true, host := rest })

/-- R70, R236, R232: while a command runs, and during the initialisation, a host action other than RST changes no state but
DROPPED (and the host's side); every register, STATUS included, reads as before, and a READ gives the host that old value. -/
def Obligations.OnlyDroppedChangesWhileRunning : Prop :=
  ∀ (s : State) (b : Nat → Activity) (n : Nat) (a : HostAction) (rest : List HostAction),
    ((∃ w old, b = .running w old) ∨ b = .initialising) → s.activity = b (n + 1) → s.host = a :: rest → a ≠ .rst →
    ∃ t, step s = .next t ∧
      t = { s with activity := b n, dropped := t.dropped, host := t.host, readLog := t.readLog } ∧
      (∀ off : Offset, memRead t off = memRead s off) ∧
      (∀ off, a = .read off → t.host = rest ∧ t.readLog = memRead s off :: s.readLog) ∧
      ((∀ off, a ≠ .read off) → t.readLog = s.readLog)

/-- R24, R240, R232: short of RST, a running command comes after finitely many steps to the step in which it completes, and an
initialisation ends after finitely many steps; until then no state changes but DROPPED, which only a dropped write sets. -/
def Obligations.BusyBlockComesToCompletion : Prop :=
  ∀ (n : Nat) (s : State), .rst ∉ s.host →
    (∀ w old, s.activity = .running w old n →
      ∃ t, core.run n s = .next t ∧
        t = { s with activity := .running w old 0, dropped := t.dropped, host := t.host, readLog := t.readLog } ∧
        (s.dropped = true → t.dropped = true)) ∧
    (s.activity = .initialising n →
      ∃ t, core.run (n + 1) s = .next t ∧
        t = { s with activity := .idle, dropped := t.dropped, host := t.host, readLog := t.readLog } ∧
        (s.dropped = true → t.dropped = true))

/-- R230 to R232: RST at any time, a running command included, puts every register at its reset value and makes the block
initialise, STATUS reading BUSY = 1 and 0 elsewhere; the running command has no effect. NODE, HEAP and OUTBUF are not named: R43 leaves them unspecified (log 1). -/
def Obligations.ResetAbandonsEverything : Prop :=
  ∀ (s : State) (rest : List HostAction), s.host = .rst :: rest →
    s.activity = .idle ∨ (∃ w old n, s.activity = .running w old (n + 1)) ∨ (∃ n, s.activity = .initialising (n + 1)) →
    ∃ t n, step s = .next t ∧ t.activity = .initialising n ∧ t.phase = .train ∧ t.resOk = false ∧ t.txnErr = .none ∧
      t.cmdErr = .none ∧ t.dropped = false ∧ t.nsym = 0 ∧ t.total = 0 ∧ t.outLen = 0 ∧ t.workLen = 0 ∧ t.resLen = 0 ∧
      t.resCode = 0 ∧ (∀ x, t.freqOf x = 0 ∧ t.ct.lenOf x = 0 ∧ t.ct.bitsOf x = 0) ∧ t.root = 0 ∧ t.cursor = 0 ∧
      t.tb.hsize = 0 ∧ t.tb.next = 0 ∧ memRead t 0x004 = 0x00000001 ∧ t.host = rest ∧ t.readLog = s.readLog

/-- R43: the reset value of every element R43 gives one; BUSY is 1 during the initialisation and 0 when it has ended. -/
def Obligations.ResetValuesAreThoseListed : Prop :=
  (memRead State.reset 0x004) = 0x00000001 ∧
    (∃ n, State.reset.activity = .initialising n) ∧
    (memRead { State.reset with activity := .idle } 0x004) = 0x00000000 ∧
    State.reset.nsym = 0 ∧ State.reset.total = 0 ∧ State.reset.outLen = 0 ∧ State.reset.workLen = 0 ∧
    State.reset.resLen = 0 ∧ State.reset.resCode = 0 ∧
    (∀ x, State.reset.freqOf x = 0 ∧ State.reset.ct.lenOf x = 0 ∧ State.reset.ct.bitsOf x = 0) ∧
    State.reset.root = 0 ∧ State.reset.cursor = 0 ∧ State.reset.tb.hsize = 0 ∧ State.reset.tb.next = 0

/-- R200: no state stops the block, and whenever it is idle it takes the next command word, whatever the word. -/
def Obligations.BlockNeverStops : Prop :=
  (∀ s : State, ∃ t, step s = .next t) ∧
    ∀ (s : State) (v : Word), s.activity = .idle → ∃ n t, step { s with host := [.write 0 v] } = .next t ∧
      t.activity = .running v s.dropped n

/-- R71, R96, R235: a host that issues commands one after another, waiting after each, gets from an idle block exactly the
effect of executing them in that order, whatever the draws of T_BUSY are. -/
def Obligations.WaitingHostRunsCommandsInOrder : Prop :=
  ∀ (is : List Instr) (s : State) (rest : List HostAction), s.activity = .idle → s.host = is.flatMap issue ++ rest →
    ∃ n t u, core.run n s = .next t ∧ execAll is s = .next u ∧
      t = { u with host := rest, draws := s.draws + is.length }

/-- R235: a host that waits for BUSY = 0 before each CMD write, and after each RST, never has a write dropped. -/
def Obligations.WaitingHostNeverDropsWrite : Prop :=
  ∀ (n : Nat) (s t : State), s.dropped = false → scriptWaits (s.busy) s.host = true → core.run n s = .next t →
    t.dropped = false

/-! ## Phases and errors (10_state.md R46; 60_exceptions.md) -/

/-- R46, R86, R203: a command legal in the current phase leads to the listed phase; in any other phase it is rejected with
BAD_PHASE and nothing else changes; and a step changes the phase only by serving RST or through an accepted command, as listed
(R22, R46). -/
def Obligations.PhaseChangesOnlyAsListed : Prop :=
  (∀ (i : Instr) (s : State),
    (∀ p, phaseTable i s.phase = some p → ∃ t, exec i s = .next t ∧ t.phase = p ∧ t.cmdErr ≠ .badPhase) ∧
      (phaseTable i s.phase = none → exec i s = .next { s with cmdErr := .badPhase })) ∧
  ∀ s t : State, step s = .next t → t.phase ≠ s.phase →
    (t.phase = .train ∧ (∃ rest, s.host = .rst :: rest ∧ t.host = rest) ∧ ∃ n, t.activity = .initialising n) ∨
      ∃ w old i, s.activity = .running w old 0 ∧ decode w = .ok i ∧ phaseTable i s.phase = some t.phase

/-- R26, R207: a latched data error stays until an accepted ENC_BEGIN, DEC_BEGIN or CLEAR, or RST. -/
def Obligations.FirstDataErrorWins : Prop :=
  ∀ s t : State, s.txnErr ≠ .none → step s = .next t →
    t.txnErr = s.txnErr ∨ (t.txnErr = .none ∧
      (((∃ rest, s.host = .rst :: rest ∧ t.host = rest) ∧ ∃ n, t.activity = .initialising n) ∨
        ∃ w old, s.activity = .running w old 0 ∧
          (decode w = .ok .clear ∨ s.phase = .ready ∧ (decode w = .ok .encBegin ∨ decode w = .ok .decBegin))))

/-- R28: DROPPED is set only by a CMD write while busy, and cleared only by CLEAR and RST. -/
def Obligations.DroppedIsSticky : Prop :=
  ∀ s t : State, step s = .next t →
    (s.dropped = true → t.dropped = false →
      ((∃ rest, s.host = .rst :: rest ∧ t.host = rest) ∧ ∃ n, t.activity = .initialising n) ∨
        ∃ w old, s.activity = .running w old 0 ∧ decode w = .ok .clear) ∧
    (s.dropped = false → t.dropped = true →
      s.activity ≠ .idle ∧ ∃ off v rest, s.host = .write off v :: rest ∧ off < 4 ∧ t.host = rest)

/-- R22, R30, R31, R33, R120: outside TRAIN no accepted command but CLEAR changes the counts, the code table, the tree or what
describes them. -/
def Obligations.BuiltModelIsFrozen : Prop :=
  ∀ (i : Instr) (s t : State), s.phase ≠ .train → i ≠ .clear → exec i s = .next t →
    t.freq = s.freq ∧ t.total = s.total ∧ t.ct = s.ct ∧ t.tb = s.tb ∧ t.nsym = s.nsym ∧ t.root = s.root

/-! ## CLEAR and TRAIN_SYM (40_train.md) -/

/-- R101: CLEAR runs in every phase; model, results and flags are cleared, and NODE, HEAP, OUTBUF, BUSY and the host's side are
left as they are; every offset of the window then reads as after reset and its initialisation. -/
def Obligations.ClearDiscardsModelAndResults : Prop :=
  (∀ w : Word, decode w = .ok .clear ↔ w = 0x01000000) ∧
  ∀ s : State, ∃ t, exec .clear s = .next t ∧
    (∀ x, t.freqOf x = 0 ∧ t.ct.lenOf x = 0 ∧ t.ct.bitsOf x = 0) ∧ t.total = 0 ∧ t.nsym = 0 ∧ t.root = 0 ∧ t.cursor = 0 ∧
    t.tb.hsize = 0 ∧ t.tb.next = 0 ∧ t.workLen = 0 ∧ t.outLen = 0 ∧ t.resLen = 0 ∧ t.resCode = 0 ∧ t.phase = .train ∧
    t.resOk = false ∧ t.txnErr = .none ∧ t.dropped = false ∧ t.cmdErr = .none ∧
    t.tb.node = s.tb.node ∧ t.tb.heap = s.tb.heap ∧ t.outbuf = s.outbuf ∧ t.activity = s.activity ∧ t.draws = s.draws ∧
    t.host = s.host ∧ t.readLog = s.readLog ∧
    (s.activity = .idle → ∀ off : Offset, memRead t off = memRead { State.reset with activity := .idle } off)

/-- R105: TRAIN_SYM x counts one occurrence of x in FREQ and TOTAL and changes nothing else but CMD_ERR; at TOTAL = 0xFFFF_FFFF
it is rejected with TRAIN_OVERFLOW, and outside TRAIN with BAD_PHASE. With R106's invariant no count wraps. -/
def Obligations.TrainSymCountsOneOccurrence : Prop :=
  ∀ x : Sym, (∀ w : Word, decode w = .ok (.trainSym x) ↔ w = 0x02000000 ||| x.zeroExtend 32) ∧
  ∀ s : State,
    (s.phase = .train → s.total ≠ 0xFFFFFFFF →
      ∃ t, exec (.trainSym x) s = .next t ∧ t.freqOf x = s.freqOf x + 1 ∧ (∀ y, y ≠ x → t.freqOf y = s.freqOf y) ∧
        t = { s with cmdErr := .none, freq := t.freq, total := s.total + 1 } ∧
        (s.countsAgree → (t.freqOf x).toNat = (s.freqOf x).toNat + 1 ∧ t.total.toNat = s.total.toNat + 1)) ∧
    (s.phase = .train → s.total = 0xFFFFFFFF → exec (.trainSym x) s = .next { s with cmdErr := .trainOverflow }) ∧
    (s.phase ≠ .train → exec (.trainSym x) s = .next { s with cmdErr := .badPhase })

/-- R107: TRAIN_SYM commands commute (as long as neither meets TRAIN_OVERFLOW). -/
def Obligations.TrainSymsCommute : Prop :=
  ∀ (s : State) (x y : Sym), s.total.toNat + 2 ≤ 0xFFFFFFFF →
    ∃ t, execAll [.trainSym x, .trainSym y] s = .next t ∧ execAll [.trainSym y, .trainSym x] s = .next t

/-! ## BUILD (41_build.md) -/

/-- R134, R135, R126, R122: BUILD in TRAIN enters READY with NSYM the number of symbols present, ROOT and NEXT as the rules give
them and HSIZE 0, and leaves every other register unchanged; elsewhere BAD_PHASE. -/
def Obligations.BuildEntersReady : Prop :=
  (∀ w : Word, decode w = .ok .build ↔ w = 0x03000000) ∧
  ∀ s : State,
    (s.phase = .train →
      ∃ t, exec .build s = .next t ∧
        t = { s with cmdErr := .none, phase := .ready, nsym := t.nsym, root := t.root, ct := t.ct, tb := t.tb } ∧
        t.nsym.toNat = (allSyms.filter (fun x => s.freqOf x ≠ 0)).length ∧
        t.root.toNat = 2 * t.nsym.toNat - 2 ∧ t.tb.next.toNat = 2 * t.nsym.toNat - 1 ∧ t.tb.hsize = 0) ∧
    (s.phase ≠ .train → exec .build s = .next { s with cmdErr := .badPhase })

/-- R123: `less` is the order by weight and then by node index, a strict total order on node indices. -/
def Obligations.LessIsAStrictTotalOrder : Prop :=
  ∀ b : TreeBuilder,
    (∀ x y, b.less x y = true ↔
      (b.nodeAt x).weight < (b.nodeAt y).weight ∨ ((b.nodeAt x).weight = (b.nodeAt y).weight ∧ x < y)) ∧
    (∀ x, b.less x x = false) ∧
    (∀ x y z, b.less x y = true → b.less y z = true → b.less x z = true) ∧
    ∀ x y, x ≠ y → b.less x y = true ∨ b.less y x = true

/-- R127: heap_push keeps the heap order and adds exactly the pushed entry; NODE and NEXT are unchanged. -/
def Obligations.HeapPushAddsOneEntry : Prop :=
  ∀ (b : TreeBuilder) (x : NodeIdx), b.hsize.toNat < 256 → b.heapOrdered →
    (heapPush x b).heapOrdered ∧ (heapPush x b).entries.Perm (x :: b.entries) ∧
      (heapPush x b).hsize.toNat = b.hsize.toNat + 1 ∧ (heapPush x b).node = b.node ∧ (heapPush x b).next = b.next

/-- R128, R129: heap_pop returns the least entry, removes exactly it, and keeps the heap order; NODE and NEXT are unchanged. -/
def Obligations.HeapPopRemovesLeastEntry : Prop :=
  ∀ b : TreeBuilder, 1 ≤ b.hsize.toNat → b.hsize.toNat ≤ 256 → b.heapOrdered →
    (∀ y ∈ b.entries, y ≠ (heapPop b).1 → b.less (heapPop b).1 y = true) ∧
      b.entries.Perm ((heapPop b).1 :: (heapPop b).2.entries) ∧ (heapPop b).2.heapOrdered ∧
      (heapPop b).2.hsize.toNat + 1 = b.hsize.toNat ∧ (heapPop b).2.node = b.node ∧ (heapPop b).2.next = b.next

/-- R121: BUILD makes one leaf per symbol present, at indices 0 to n - 1 in ascending order of symbol, with its count as
weight. -/
def Obligations.BuildMakesLeavesInSymbolOrder : Prop :=
  ∀ s t : State, s.phase = .train → exec .build s = .next t →
    (∀ k : NodeIdx, k.toNat < t.nsym.toNat →
      (t.tb.nodeAt k).isLeaf = true ∧ (t.tb.nodeAt k).weight = s.freqOf (t.tb.nodeAt k).sym ∧
        s.freqOf (t.tb.nodeAt k).sym ≠ 0) ∧
    (∀ j k : NodeIdx, j < k → k.toNat < t.nsym.toNat → (t.tb.nodeAt j).sym < (t.tb.nodeAt k).sym) ∧
    ∀ x : Sym, s.freqOf x ≠ 0 → ∃ k : NodeIdx, k.toNat < t.nsym.toNat ∧ (t.tb.nodeAt k).sym = x

/-- R125 with R129: each internal node k = n, ..., 2n - 2 takes as LEFT the least and as RIGHT the next least of the nodes in the
queue when it is created, and its weight is the sum of theirs. -/
def Obligations.BuildMergesTheTwoLeastNodes : Prop :=
  ∀ s t : State, s.phase = .train → exec .build s = .next t →
    ∀ k : NodeIdx, t.nsym.toNat ≤ k.toNat → k.toNat < 2 * t.nsym.toNat - 1 →
      (t.tb.nodeAt k).isLeaf = false ∧
      (t.tb.nodeAt k).weight = (t.tb.nodeAt (t.tb.nodeAt k).left).weight + (t.tb.nodeAt (t.tb.nodeAt k).right).weight ∧
      t.tb.queued t.nsym.toNat k (t.tb.nodeAt k).left ∧ t.tb.queued t.nsym.toNat k (t.tb.nodeAt k).right ∧
      (t.tb.nodeAt k).left ≠ (t.tb.nodeAt k).right ∧
      ∀ j : NodeIdx, t.tb.queued t.nsym.toNat k j → j ≠ (t.tb.nodeAt k).left →
        t.tb.less (t.tb.nodeAt k).left j = true ∧
          (j ≠ (t.tb.nodeAt k).right → t.tb.less (t.tb.nodeAt k).right j = true)

/-- R122, R131, R130, R133: after BUILD the symbols with a codeword are exactly those trained; an untrained symbol has length
and bits 0, a single symbol has "0", and otherwise a codeword is the path from ROOT to the symbol's leaf with every bit at and
above its length 0. -/
def Obligations.BuildGivesPathsAsCodewords : Prop :=
  ∀ s t : State, s.phase = .train → exec .build s = .next t →
    ∀ x : Sym,
      (s.freqOf x = 0 → t.ct.lenOf x = 0 ∧ t.ct.bitsOf x = 0) ∧
      (s.freqOf x ≠ 0 → 1 ≤ (t.ct.lenOf x).toNat ∧
        (t.nsym = 1 → t.ct.lenOf x = 1 ∧ t.ct.bitsOf x = 0) ∧
        (2 ≤ t.nsym → ∃ k : NodeIdx, k.toNat < t.nsym.toNat ∧ (t.tb.nodeAt k).sym = x ∧
          t.tb.follow (t.ct.codeword x) t.root = some k) ∧
        ∀ i, (t.ct.lenOf x).toNat ≤ i → (t.ct.bitsOf x).getLsbD i = false)

/-- R136: the codewords after BUILD are prefix-free. -/
def Obligations.BuiltCodeIsPrefixFree : Prop :=
  ∀ s t : State, s.phase = .train → exec .build s = .next t →
    prefixFree (fun x => s.freqOf x ≠ 0) t.ct.codeword

/-- R137: for NSYM >= 2 the built code has the least weighted length of all prefix-free binary codes for the counts. -/
def Obligations.BuiltCodeIsOptimal : Prop :=
  ∀ s t : State, s.phase = .train → s.countsAgree → exec .build s = .next t → 2 ≤ t.nsym →
    ∀ code : Sym → List Bool, prefixFree (fun x => s.freqOf x ≠ 0) code →
      s.weightedLength (fun x => (t.ct.lenOf x).toNat) ≤ s.weightedLength (fun x => (code x).length)

/-- R138: BUILDs from the same counts, over whatever NODE and HEAP held, give the same code table, NSYM, ROOT and NODE contents
(of the tree's nodes, in the fields their kind uses). -/
def Obligations.BuildIsDeterminedByTheCounts : Prop :=
  ∀ s u s' u' : State, s.phase = .train → u.phase = .train → s.freq = u.freq →
    exec .build s = .next s' → exec .build u = .next u' →
    s'.ct = u'.ct ∧ s'.nsym = u'.nsym ∧ s'.root = u'.root ∧ TreeBuilder.agrees s'.nsym.toNat s'.tb u'.tb

/-! ## GET_CODE and the encoder (42_encode.md) -/

/-- R151: GET_CODE copies the symbol's code table entry to RES_LEN and RES_CODE and changes nothing else but CMD_ERR. -/
def Obligations.GetCodeReadsTheCodeTable : Prop :=
  ∀ x : Sym, (∀ w : Word, decode w = .ok (.getCode x) ↔ w = 0x04000000 ||| x.zeroExtend 32) ∧
  ∀ s : State,
    (s.phase = .ready →
      exec (.getCode x) s =
        .next { s with cmdErr := .none, resLen := s.ct.lenOf x, resCode := (s.ct.bitsOf x).zeroExtend 256 }) ∧
    (s.phase ≠ .ready → exec (.getCode x) s = .next { s with cmdErr := .badPhase })

/-- R152 and R171: ENC_BEGIN and DEC_BEGIN discard the previous result and open a transaction; DEC_BEGIN puts CURSOR at ROOT.
Nothing else changes. -/
def Obligations.BeginOpensATransaction : Prop :=
  (∀ w : Word, (decode w = .ok .encBegin ↔ w = 0x05000000) ∧ (decode w = .ok .decBegin ↔ w = 0x08000000)) ∧
  ∀ s : State,
    (s.phase = .ready →
      exec .encBegin s = .next { s with
        cmdErr := .none, workLen := 0, outLen := 0, txnErr := .none, resOk := false, phase := .enc } ∧
      exec .decBegin s = .next { s with
        cmdErr := .none, workLen := 0, outLen := 0, txnErr := .none, resOk := false, cursor := s.root, phase := .dec }) ∧
    (s.phase ≠ .ready → exec .encBegin s = .next { s with cmdErr := .badPhase } ∧
      exec .decBegin s = .next { s with cmdErr := .badPhase })

/-- R153, R154, R207: ENC_SYM x appends the tokens of x's codeword, c_0 first, at WORK_LEN; it latches UNKNOWN_SYMBOL or
OUTPUT_OVERFLOW with no other effect; after a data error it does nothing. Every OUTBUF byte outside the appended ones reads as
before. -/
def Obligations.EncSymAppendsTheCodeword : Prop :=
  ∀ x : Sym, (∀ w : Word, decode w = .ok (.encSym x) ↔ w = 0x06000000 ||| x.zeroExtend 32) ∧
  ∀ s : State,
    (s.phase = .enc → s.txnErr ≠ .none → exec (.encSym x) s = .next { s with cmdErr := .none }) ∧
    (s.phase = .enc → s.txnErr = .none → s.ct.lenOf x = 0 →
      exec (.encSym x) s = .next { s with cmdErr := .none, txnErr := .unknownSymbol }) ∧
    (s.phase = .enc → s.txnErr = .none → s.ct.lenOf x ≠ 0 →
      Config.outCap < s.workLen.toNat + (s.ct.lenOf x).toNat →
      exec (.encSym x) s = .next { s with cmdErr := .none, txnErr := .outputOverflow }) ∧
    (s.phase = .enc → s.txnErr = .none → s.ct.lenOf x ≠ 0 → s.outbuf.wf = true →
      s.workLen.toNat + (s.ct.lenOf x).toNat ≤ Config.outCap →
      ∃ t, exec (.encSym x) s = .next t ∧
        t = { s with cmdErr := .none, outbuf := t.outbuf, workLen := t.workLen } ∧
        t.workLen.toNat = s.workLen.toNat + (s.ct.lenOf x).toNat ∧
        (∀ i, i < (s.ct.lenOf x).toNat →
          t.outbuf.read (s.workLen.toNat + i) = if (s.ct.bitsOf x).getLsbD i then 0x31 else 0x30) ∧
        ∀ a, (a < s.workLen.toNat ∨ s.workLen.toNat + (s.ct.lenOf x).toNat ≤ a) → t.outbuf.read a = s.outbuf.read a) ∧
    (s.phase ≠ .enc → exec (.encSym x) s = .next { s with cmdErr := .badPhase })

/-- R155, R156: ENC_END commits WORK_LEN as OUT_LEN with RES_OK when there was no data error, and OUT_LEN = 0 without it when
there was; nothing else changes but PHASE and CMD_ERR. -/
def Obligations.EncEndCommitsResultOrFailure : Prop :=
  (∀ w : Word, decode w = .ok .encEnd ↔ w = 0x07000000) ∧
  ∀ s : State,
    (s.phase = .enc → s.txnErr = .none →
      exec .encEnd s = .next { s with cmdErr := .none, outLen := s.workLen, resOk := true, phase := .ready }) ∧
    (s.phase = .enc → s.txnErr ≠ .none →
      exec .encEnd s = .next { s with cmdErr := .none, outLen := 0, resOk := false, phase := .ready }) ∧
    (s.phase ≠ .enc → exec .encEnd s = .next { s with cmdErr := .badPhase })

/-- R150, R154, R157: an encode transaction commits exactly the tokens of the input's codewords when every symbol has one and
they fit OUTBUF, and nothing otherwise. -/
def Obligations.EncodeIsAllOrNothing : Prop :=
  ∀ (s : State) (xs : List Sym), s.phase = .ready → s.outbuf.wf = true →
    ∃ t, execAll (encodeTxn xs) s = .next t ∧ t.phase = .ready ∧
      (t.resOk = true ↔ (∀ x ∈ xs, s.ct.lenOf x ≠ 0) ∧ (s.ct.tokens xs).length ≤ Config.outCap) ∧
      (t.resOk = true → t.committed = s.ct.tokens xs ∧ t.txnErr = .none) ∧
      (t.resOk = false → t.outLen = 0 ∧ t.committed = [])

/-- R157, R178: an encode transaction's result depends on the code table and the input only. -/
def Obligations.EncodeDependsOnTheCodeTableOnly : Prop :=
  ∀ (s u t v : State) (xs : List Sym), s.phase = .ready → u.phase = .ready → s.ct = u.ct → s.outbuf.wf = true →
    u.outbuf.wf = true → execAll (encodeTxn xs) s = .next t → execAll (encodeTxn xs) u = .next v →
    t.outLen = v.outLen ∧ t.committed = v.committed ∧ t.resOk = v.resOk ∧ t.txnErr = v.txnErr

/-! ## The decoder (43_decode.md) -/

/-- R172, R207, R208: DEC_BIT does nothing after a data error; else EMPTY_MODEL comes before INVALID_BIT_TOKEN; else a token
steps the single-symbol model or the tree. -/
def Obligations.DecBitChecksInOrder : Prop :=
  ∀ t : Byte, (∀ w : Word, decode w = .ok (.decBit t) ↔ w = 0x09000000 ||| t.zeroExtend 32) ∧
  ∀ s : State,
    (s.phase = .dec → s.txnErr ≠ .none → exec (.decBit t) s = .next { s with cmdErr := .none }) ∧
    (s.phase = .dec → s.txnErr = .none → s.nsym = 0 →
      exec (.decBit t) s = .next { s with cmdErr := .none, txnErr := .emptyModel }) ∧
    (s.phase = .dec → s.txnErr = .none → s.nsym ≠ 0 → t ≠ 0x30 → t ≠ 0x31 →
      exec (.decBit t) s = .next { s with cmdErr := .none, txnErr := .invalidBitToken }) ∧
    (∀ b : Bool, s.phase = .dec → s.txnErr = .none → s.nsym ≠ 0 → t = (if b then 0x31 else 0x30) →
      exec (.decBit t) s = .next
        (match if s.nsym = 1 then State.singleSymbolStep b { s with cmdErr := .none }
            else State.treeStep b { s with cmdErr := .none } with
          | .ok u => u
          | .error e => { s with cmdErr := .none, txnErr := e })) ∧
    (s.phase ≠ .dec → exec (.decBit t) s = .next { s with cmdErr := .badPhase })

/-- R173: in a single-symbol model '1' is INVALID_BIT_TOKEN and '0' emits the one symbol at WORK_LEN, or OUTPUT_OVERFLOW when
OUTBUF is full; CURSOR is not used, and every other OUTBUF byte reads as before. -/
def Obligations.SingleSymbolModelDecodesZeros : Prop :=
  ∀ s : State, s.phase = .dec → s.txnErr = .none → s.nsym = 1 →
    exec (.decBit 0x31) s = .next { s with cmdErr := .none, txnErr := .invalidBitToken } ∧
    (s.workLen.toNat = Config.outCap →
      exec (.decBit 0x30) s = .next { s with cmdErr := .none, txnErr := .outputOverflow }) ∧
    (s.workLen.toNat < Config.outCap → s.outbuf.wf = true →
      ∃ t, exec (.decBit 0x30) s = .next t ∧
        t = { s with cmdErr := .none, outbuf := t.outbuf, workLen := t.workLen } ∧
        t.workLen.toNat = s.workLen.toNat + 1 ∧ t.outbuf.read s.workLen.toNat = (s.tb.nodeAt s.root).sym ∧
        ∀ a, a ≠ s.workLen.toNat → t.outbuf.read a = s.outbuf.read a)

/-- R174: with NSYM >= 2 a token moves CURSOR to the child it names; at a leaf the leaf's symbol is emitted at WORK_LEN and CURSOR
goes to ROOT in the same step, or OUTPUT_OVERFLOW is latched and CURSOR stays; every other OUTBUF byte reads as before. -/
def Obligations.TreeStepMovesOrEmits : Prop :=
  ∀ (s : State) (b : Bool) (c : NodeIdx), s.phase = .dec → s.txnErr = .none → 2 ≤ s.nsym →
    c = (if b then (s.tb.nodeAt s.cursor).right else (s.tb.nodeAt s.cursor).left) →
    ((s.tb.nodeAt c).isLeaf = false →
      exec (.decBit (if b then 0x31 else 0x30)) s = .next { s with cmdErr := .none, cursor := c }) ∧
    ((s.tb.nodeAt c).isLeaf = true → s.workLen.toNat = Config.outCap →
      exec (.decBit (if b then 0x31 else 0x30)) s = .next { s with cmdErr := .none, txnErr := .outputOverflow }) ∧
    ((s.tb.nodeAt c).isLeaf = true → s.workLen.toNat < Config.outCap → s.outbuf.wf = true →
      ∃ t, exec (.decBit (if b then 0x31 else 0x30)) s = .next t ∧
        t = { s with cmdErr := .none, outbuf := t.outbuf, workLen := t.workLen, cursor := s.root } ∧
        t.workLen.toNat = s.workLen.toNat + 1 ∧ t.outbuf.read s.workLen.toNat = (s.tb.nodeAt c).sym ∧
        ∀ a, a ≠ s.workLen.toNat → t.outbuf.read a = s.outbuf.read a)

/-- R175, R156: DEC_END latches TRUNCATED_STREAM when the stream ended inside a codeword, then commits the result or the
failure; nothing else changes but PHASE and CMD_ERR. -/
def Obligations.DecEndChecksAndCommits : Prop :=
  (∀ w : Word, decode w = .ok .decEnd ↔ w = 0x0A000000) ∧
  ∀ s : State,
    (s.phase = .dec → s.txnErr ≠ .none →
      exec .decEnd s = .next { s with cmdErr := .none, outLen := 0, resOk := false, phase := .ready }) ∧
    (s.phase = .dec → s.txnErr = .none → 2 ≤ s.nsym → s.cursor ≠ s.root →
      exec .decEnd s = .next { s with
        cmdErr := .none, txnErr := .truncatedStream, outLen := 0, resOk := false, phase := .ready }) ∧
    (s.phase = .dec → s.txnErr = .none → (s.nsym < 2 ∨ s.cursor = s.root) →
      exec .decEnd s = .next { s with cmdErr := .none, outLen := s.workLen, resOk := true, phase := .ready }) ∧
    (s.phase ≠ .dec → exec .decEnd s = .next { s with cmdErr := .badPhase })

/-- R177: what an encode transaction committed decodes, over the same tree, to the encoded input. Rests on the invariants
`State.TreeWf` and `State.CodesWf`, which StepKeepsTheTree and StepKeepsTheCodes state. -/
def Obligations.DecodeInvertsEncode : Prop :=
  ∀ (s t v : State) (xs : List Sym), s.phase = .ready → s.TreeWf → s.CodesWf → s.outbuf.wf = true →
    execAll (encodeTxn xs) s = .next t → t.resOk = true →
    v.phase = .ready → v.tb = s.tb → v.nsym = s.nsym → v.root = s.root → v.outbuf.wf = true →
    ∃ u, execAll (decodeTxn t.committed) v = .next u ∧ u.resOk = true ∧ u.txnErr = .none ∧ u.committed = xs

/-- R176: after DEC_BEGIN and valid tokens without a data error over a tree of two or more symbols, CURSOR is ROOT exactly when
the tokens taken are a concatenation of whole codewords. Rests on the invariants `State.TreeWf` and `State.CodesWf`. -/
def Obligations.CursorAtRootMeansWholeCodewords : Prop :=
  ∀ (s t : State) (bits : List Bool), s.phase = .ready → s.TreeWf → s.CodesWf → 2 ≤ s.nsym →
    execAll (.decBegin :: (bits.map bitToken).map .decBit) s = .next t → t.txnErr = .none →
    (t.cursor = t.root ↔ ∃ xs : List Sym, (∀ x ∈ xs, s.freqOf x ≠ 0) ∧ bits = xs.flatMap s.ct.codeword)

/-! ## Invariants of every step -/

/-- Every invariant below holds at reset. -/
def Obligations.ResetMeetsTheInvariants : Prop :=
  State.reset.countsAgree ∧ State.reset.bufferWf ∧ State.reset.resultWf ∧ State.reset.trainWf ∧ State.reset.codeBitsWf ∧
    State.reset.heapIdle ∧ State.reset.treeInv ∧ State.reset.codesInv ∧ State.reset.cursorInv ∧ State.reset.prefixFreeInv

/-- R32, R106: every step keeps TOTAL equal to the sum of the counts. -/
def Obligations.StepKeepsTotalTheSumOfCounts : Prop :=
  ∀ s t : State, s.countsAgree → step s = .next t → t.countsAgree

/-- R37, R39: every step keeps WORK_LEN and OUT_LEN within OUT_CAP and OUTBUF's list in canonical form and within OUT_CAP. -/
def Obligations.StepKeepsTheBuffer : Prop :=
  ∀ s t : State, s.bufferWf → step s = .next t → t.bufferWf

/-- R25, R29, R37, R238: every step keeps OUT_LEN 0 without a valid result, a valid result only in READY, and TRAIN without a
model or result. -/
def Obligations.StepKeepsResultVisibility : Prop :=
  ∀ s t : State, s.resultWf → s.trainWf → step s = .next t → t.resultWf ∧ t.trainWf

/-- R31, R34, R40: every step keeps the unused bits of codewords 0 and the heap empty between commands. -/
def Obligations.StepKeepsCodeBitsAndIdleHeap : Prop :=
  ∀ s t : State, s.codeBitsWf → s.heapIdle → step s = .next t → t.codeBitsWf ∧ t.heapIdle

/-- R41: every step keeps the arena a well-formed tree over the symbols present, outside TRAIN. -/
def Obligations.StepKeepsTheTree : Prop :=
  ∀ s t : State, s.countsAgree → s.treeInv → step s = .next t → t.treeInv

/-- R130, R131, R133: every step keeps the code table that of the tree, outside TRAIN. -/
def Obligations.StepKeepsTheCodes : Prop :=
  ∀ s t : State, s.codesInv → step s = .next t → t.codesInv

/-- R176: every step keeps CURSOR on an internal node in an error-free decode over two or more symbols. -/
def Obligations.StepKeepsTheCursorInternal : Prop :=
  ∀ s t : State, s.treeInv → s.cursorInv → step s = .next t → t.cursorInv

/-- R45: what reset leaves unspecified is never observed: two states that differ at most there read alike at every offset, and
a step keeps them so. Rests on the invariants named. -/
def Obligations.UnspecifiedElementsAreNeverObserved : Prop :=
  ∀ s u : State, s.treeInv → s.cursorInv → u.treeInv → u.cursorInv → s.outbuf.wf = true → u.outbuf.wf = true →
    s.agrees u →
    (∀ off : Offset, memRead s off = memRead u off) ∧
      ∀ s' u' : State, step s = .next s' → step u = .next u' → s'.agrees u'

/-- R136: every step keeps the code table prefix-free over the symbols present, outside TRAIN. -/
def Obligations.StepKeepsTheCodePrefixFree : Prop :=
  ∀ s t : State, s.prefixFreeInv → step s = .next t → t.prefixFreeInv
end

