-- ==== Sys2Proof/Laws/State.lean ====
section
/-! SUPPORT. One lemma per field of State per named update: what the update leaves in that field. -/

namespace Sys2Proof.Machine

variable (s : State)

/-! ## raise CmdError (R203) -/

@[simp] theorem State.raiseCmdError_phase (e : CmdErr) : (s.raiseCmdError e).phase = s.phase := rfl
@[simp] theorem State.raiseCmdError_resOk (e : CmdErr) : (s.raiseCmdError e).resOk = s.resOk := rfl
@[simp] theorem State.raiseCmdError_txnErr (e : CmdErr) : (s.raiseCmdError e).txnErr = s.txnErr := rfl
@[simp] theorem State.raiseCmdError_cmdErr (e : CmdErr) : (s.raiseCmdError e).cmdErr = e := rfl
@[simp] theorem State.raiseCmdError_dropped (e : CmdErr) : (s.raiseCmdError e).dropped = s.dropped := rfl
@[simp] theorem State.raiseCmdError_nsym (e : CmdErr) : (s.raiseCmdError e).nsym = s.nsym := rfl
@[simp] theorem State.raiseCmdError_total (e : CmdErr) : (s.raiseCmdError e).total = s.total := rfl
@[simp] theorem State.raiseCmdError_outLen (e : CmdErr) : (s.raiseCmdError e).outLen = s.outLen := rfl
@[simp] theorem State.raiseCmdError_workLen (e : CmdErr) : (s.raiseCmdError e).workLen = s.workLen := rfl
@[simp] theorem State.raiseCmdError_resLen (e : CmdErr) : (s.raiseCmdError e).resLen = s.resLen := rfl
@[simp] theorem State.raiseCmdError_resCode (e : CmdErr) : (s.raiseCmdError e).resCode = s.resCode := rfl
@[simp] theorem State.raiseCmdError_freq (e : CmdErr) : (s.raiseCmdError e).freq = s.freq := rfl
@[simp] theorem State.raiseCmdError_ct (e : CmdErr) : (s.raiseCmdError e).ct = s.ct := rfl
@[simp] theorem State.raiseCmdError_tb (e : CmdErr) : (s.raiseCmdError e).tb = s.tb := rfl
@[simp] theorem State.raiseCmdError_root (e : CmdErr) : (s.raiseCmdError e).root = s.root := rfl
@[simp] theorem State.raiseCmdError_cursor (e : CmdErr) : (s.raiseCmdError e).cursor = s.cursor := rfl
@[simp] theorem State.raiseCmdError_outbuf (e : CmdErr) : (s.raiseCmdError e).outbuf = s.outbuf := rfl
@[simp] theorem State.raiseCmdError_activity (e : CmdErr) : (s.raiseCmdError e).activity = s.activity := rfl
@[simp] theorem State.raiseCmdError_draws (e : CmdErr) : (s.raiseCmdError e).draws = s.draws := rfl
@[simp] theorem State.raiseCmdError_host (e : CmdErr) : (s.raiseCmdError e).host = s.host := rfl
@[simp] theorem State.raiseCmdError_readLog (e : CmdErr) : (s.raiseCmdError e).readLog = s.readLog := rfl

/-! ## CMD_ERR <- NONE (R202) -/

@[simp] theorem State.accepted_phase : (s.accepted).phase = s.phase := rfl
@[simp] theorem State.accepted_resOk : (s.accepted).resOk = s.resOk := rfl
@[simp] theorem State.accepted_txnErr : (s.accepted).txnErr = s.txnErr := rfl
@[simp] theorem State.accepted_cmdErr : (s.accepted).cmdErr = .none := rfl
@[simp] theorem State.accepted_dropped : (s.accepted).dropped = s.dropped := rfl
@[simp] theorem State.accepted_nsym : (s.accepted).nsym = s.nsym := rfl
@[simp] theorem State.accepted_total : (s.accepted).total = s.total := rfl
@[simp] theorem State.accepted_outLen : (s.accepted).outLen = s.outLen := rfl
@[simp] theorem State.accepted_workLen : (s.accepted).workLen = s.workLen := rfl
@[simp] theorem State.accepted_resLen : (s.accepted).resLen = s.resLen := rfl
@[simp] theorem State.accepted_resCode : (s.accepted).resCode = s.resCode := rfl
@[simp] theorem State.accepted_freq : (s.accepted).freq = s.freq := rfl
@[simp] theorem State.accepted_ct : (s.accepted).ct = s.ct := rfl
@[simp] theorem State.accepted_tb : (s.accepted).tb = s.tb := rfl
@[simp] theorem State.accepted_root : (s.accepted).root = s.root := rfl
@[simp] theorem State.accepted_cursor : (s.accepted).cursor = s.cursor := rfl
@[simp] theorem State.accepted_outbuf : (s.accepted).outbuf = s.outbuf := rfl
@[simp] theorem State.accepted_activity : (s.accepted).activity = s.activity := rfl
@[simp] theorem State.accepted_draws : (s.accepted).draws = s.draws := rfl
@[simp] theorem State.accepted_host : (s.accepted).host = s.host := rfl
@[simp] theorem State.accepted_readLog : (s.accepted).readLog = s.readLog := rfl

/-! ## raise TxnError (R205) -/

@[simp] theorem State.raiseTxnError_phase (e : TxnErr) : (s.raiseTxnError e).phase = s.phase := rfl
@[simp] theorem State.raiseTxnError_resOk (e : TxnErr) : (s.raiseTxnError e).resOk = s.resOk := rfl
@[simp] theorem State.raiseTxnError_txnErr (e : TxnErr) : (s.raiseTxnError e).txnErr = e := rfl
@[simp] theorem State.raiseTxnError_cmdErr (e : TxnErr) : (s.raiseTxnError e).cmdErr = s.cmdErr := rfl
@[simp] theorem State.raiseTxnError_dropped (e : TxnErr) : (s.raiseTxnError e).dropped = s.dropped := rfl
@[simp] theorem State.raiseTxnError_nsym (e : TxnErr) : (s.raiseTxnError e).nsym = s.nsym := rfl
@[simp] theorem State.raiseTxnError_total (e : TxnErr) : (s.raiseTxnError e).total = s.total := rfl
@[simp] theorem State.raiseTxnError_outLen (e : TxnErr) : (s.raiseTxnError e).outLen = s.outLen := rfl
@[simp] theorem State.raiseTxnError_workLen (e : TxnErr) : (s.raiseTxnError e).workLen = s.workLen := rfl
@[simp] theorem State.raiseTxnError_resLen (e : TxnErr) : (s.raiseTxnError e).resLen = s.resLen := rfl
@[simp] theorem State.raiseTxnError_resCode (e : TxnErr) : (s.raiseTxnError e).resCode = s.resCode := rfl
@[simp] theorem State.raiseTxnError_freq (e : TxnErr) : (s.raiseTxnError e).freq = s.freq := rfl
@[simp] theorem State.raiseTxnError_ct (e : TxnErr) : (s.raiseTxnError e).ct = s.ct := rfl
@[simp] theorem State.raiseTxnError_tb (e : TxnErr) : (s.raiseTxnError e).tb = s.tb := rfl
@[simp] theorem State.raiseTxnError_root (e : TxnErr) : (s.raiseTxnError e).root = s.root := rfl
@[simp] theorem State.raiseTxnError_cursor (e : TxnErr) : (s.raiseTxnError e).cursor = s.cursor := rfl
@[simp] theorem State.raiseTxnError_outbuf (e : TxnErr) : (s.raiseTxnError e).outbuf = s.outbuf := rfl
@[simp] theorem State.raiseTxnError_activity (e : TxnErr) : (s.raiseTxnError e).activity = s.activity := rfl
@[simp] theorem State.raiseTxnError_draws (e : TxnErr) : (s.raiseTxnError e).draws = s.draws := rfl
@[simp] theorem State.raiseTxnError_host (e : TxnErr) : (s.raiseTxnError e).host = s.host := rfl
@[simp] theorem State.raiseTxnError_readLog (e : TxnErr) : (s.raiseTxnError e).readLog = s.readLog := rfl

/-! ## a dropped CMD write (R201) -/

@[simp] theorem State.dropWrite_phase : (s.dropWrite).phase = s.phase := rfl
@[simp] theorem State.dropWrite_resOk : (s.dropWrite).resOk = s.resOk := rfl
@[simp] theorem State.dropWrite_txnErr : (s.dropWrite).txnErr = s.txnErr := rfl
@[simp] theorem State.dropWrite_cmdErr : (s.dropWrite).cmdErr = s.cmdErr := rfl
@[simp] theorem State.dropWrite_dropped : (s.dropWrite).dropped = true := rfl
@[simp] theorem State.dropWrite_nsym : (s.dropWrite).nsym = s.nsym := rfl
@[simp] theorem State.dropWrite_total : (s.dropWrite).total = s.total := rfl
@[simp] theorem State.dropWrite_outLen : (s.dropWrite).outLen = s.outLen := rfl
@[simp] theorem State.dropWrite_workLen : (s.dropWrite).workLen = s.workLen := rfl
@[simp] theorem State.dropWrite_resLen : (s.dropWrite).resLen = s.resLen := rfl
@[simp] theorem State.dropWrite_resCode : (s.dropWrite).resCode = s.resCode := rfl
@[simp] theorem State.dropWrite_freq : (s.dropWrite).freq = s.freq := rfl
@[simp] theorem State.dropWrite_ct : (s.dropWrite).ct = s.ct := rfl
@[simp] theorem State.dropWrite_tb : (s.dropWrite).tb = s.tb := rfl
@[simp] theorem State.dropWrite_root : (s.dropWrite).root = s.root := rfl
@[simp] theorem State.dropWrite_cursor : (s.dropWrite).cursor = s.cursor := rfl
@[simp] theorem State.dropWrite_outbuf : (s.dropWrite).outbuf = s.outbuf := rfl
@[simp] theorem State.dropWrite_activity : (s.dropWrite).activity = s.activity := rfl
@[simp] theorem State.dropWrite_draws : (s.dropWrite).draws = s.draws := rfl
@[simp] theorem State.dropWrite_host : (s.dropWrite).host = s.host := rfl
@[simp] theorem State.dropWrite_readLog : (s.dropWrite).readLog = s.readLog := rfl

/-! ## completion, BUSY <- 0 (R70) -/

@[simp] theorem State.release_phase : (s.release).phase = s.phase := rfl
@[simp] theorem State.release_resOk : (s.release).resOk = s.resOk := rfl
@[simp] theorem State.release_txnErr : (s.release).txnErr = s.txnErr := rfl
@[simp] theorem State.release_cmdErr : (s.release).cmdErr = s.cmdErr := rfl
@[simp] theorem State.release_dropped : (s.release).dropped = s.dropped := rfl
@[simp] theorem State.release_nsym : (s.release).nsym = s.nsym := rfl
@[simp] theorem State.release_total : (s.release).total = s.total := rfl
@[simp] theorem State.release_outLen : (s.release).outLen = s.outLen := rfl
@[simp] theorem State.release_workLen : (s.release).workLen = s.workLen := rfl
@[simp] theorem State.release_resLen : (s.release).resLen = s.resLen := rfl
@[simp] theorem State.release_resCode : (s.release).resCode = s.resCode := rfl
@[simp] theorem State.release_freq : (s.release).freq = s.freq := rfl
@[simp] theorem State.release_ct : (s.release).ct = s.ct := rfl
@[simp] theorem State.release_tb : (s.release).tb = s.tb := rfl
@[simp] theorem State.release_root : (s.release).root = s.root := rfl
@[simp] theorem State.release_cursor : (s.release).cursor = s.cursor := rfl
@[simp] theorem State.release_outbuf : (s.release).outbuf = s.outbuf := rfl
@[simp] theorem State.release_activity : (s.release).activity = .idle := rfl
@[simp] theorem State.release_draws : (s.release).draws = s.draws := rfl
@[simp] theorem State.release_host : (s.release).host = s.host := rfl
@[simp] theorem State.release_readLog : (s.release).readLog = s.readLog := rfl

/-! ## FREQ[x] <- v (R30) -/

@[simp] theorem State.setFreq_phase (x : Sym) (v : Count) : (s.setFreq x v).phase = s.phase := rfl
@[simp] theorem State.setFreq_resOk (x : Sym) (v : Count) : (s.setFreq x v).resOk = s.resOk := rfl
@[simp] theorem State.setFreq_txnErr (x : Sym) (v : Count) : (s.setFreq x v).txnErr = s.txnErr := rfl
@[simp] theorem State.setFreq_cmdErr (x : Sym) (v : Count) : (s.setFreq x v).cmdErr = s.cmdErr := rfl
@[simp] theorem State.setFreq_dropped (x : Sym) (v : Count) : (s.setFreq x v).dropped = s.dropped := rfl
@[simp] theorem State.setFreq_nsym (x : Sym) (v : Count) : (s.setFreq x v).nsym = s.nsym := rfl
@[simp] theorem State.setFreq_total (x : Sym) (v : Count) : (s.setFreq x v).total = s.total := rfl
@[simp] theorem State.setFreq_outLen (x : Sym) (v : Count) : (s.setFreq x v).outLen = s.outLen := rfl
@[simp] theorem State.setFreq_workLen (x : Sym) (v : Count) : (s.setFreq x v).workLen = s.workLen := rfl
@[simp] theorem State.setFreq_resLen (x : Sym) (v : Count) : (s.setFreq x v).resLen = s.resLen := rfl
@[simp] theorem State.setFreq_resCode (x : Sym) (v : Count) : (s.setFreq x v).resCode = s.resCode := rfl
@[simp] theorem State.setFreq_freq (x : Sym) (v : Count) : (s.setFreq x v).freq = s.freq.set x.toNat v x.isLt := rfl
@[simp] theorem State.setFreq_ct (x : Sym) (v : Count) : (s.setFreq x v).ct = s.ct := rfl
@[simp] theorem State.setFreq_tb (x : Sym) (v : Count) : (s.setFreq x v).tb = s.tb := rfl
@[simp] theorem State.setFreq_root (x : Sym) (v : Count) : (s.setFreq x v).root = s.root := rfl
@[simp] theorem State.setFreq_cursor (x : Sym) (v : Count) : (s.setFreq x v).cursor = s.cursor := rfl
@[simp] theorem State.setFreq_outbuf (x : Sym) (v : Count) : (s.setFreq x v).outbuf = s.outbuf := rfl
@[simp] theorem State.setFreq_activity (x : Sym) (v : Count) : (s.setFreq x v).activity = s.activity := rfl
@[simp] theorem State.setFreq_draws (x : Sym) (v : Count) : (s.setFreq x v).draws = s.draws := rfl
@[simp] theorem State.setFreq_host (x : Sym) (v : Count) : (s.setFreq x v).host = s.host := rfl
@[simp] theorem State.setFreq_readLog (x : Sym) (v : Count) : (s.setFreq x v).readLog = s.readLog := rfl

/-! ## a taken CMD write (R65) -/

@[simp] theorem State.takeCommand_phase (w : Word) : (s.takeCommand w).phase = s.phase := rfl
@[simp] theorem State.takeCommand_resOk (w : Word) : (s.takeCommand w).resOk = s.resOk := rfl
@[simp] theorem State.takeCommand_txnErr (w : Word) : (s.takeCommand w).txnErr = s.txnErr := rfl
@[simp] theorem State.takeCommand_cmdErr (w : Word) : (s.takeCommand w).cmdErr = s.cmdErr := rfl
@[simp] theorem State.takeCommand_dropped (w : Word) : (s.takeCommand w).dropped = s.dropped := rfl
@[simp] theorem State.takeCommand_nsym (w : Word) : (s.takeCommand w).nsym = s.nsym := rfl
@[simp] theorem State.takeCommand_total (w : Word) : (s.takeCommand w).total = s.total := rfl
@[simp] theorem State.takeCommand_outLen (w : Word) : (s.takeCommand w).outLen = s.outLen := rfl
@[simp] theorem State.takeCommand_workLen (w : Word) : (s.takeCommand w).workLen = s.workLen := rfl
@[simp] theorem State.takeCommand_resLen (w : Word) : (s.takeCommand w).resLen = s.resLen := rfl
@[simp] theorem State.takeCommand_resCode (w : Word) : (s.takeCommand w).resCode = s.resCode := rfl
@[simp] theorem State.takeCommand_freq (w : Word) : (s.takeCommand w).freq = s.freq := rfl
@[simp] theorem State.takeCommand_ct (w : Word) : (s.takeCommand w).ct = s.ct := rfl
@[simp] theorem State.takeCommand_tb (w : Word) : (s.takeCommand w).tb = s.tb := rfl
@[simp] theorem State.takeCommand_root (w : Word) : (s.takeCommand w).root = s.root := rfl
@[simp] theorem State.takeCommand_cursor (w : Word) : (s.takeCommand w).cursor = s.cursor := rfl
@[simp] theorem State.takeCommand_outbuf (w : Word) : (s.takeCommand w).outbuf = s.outbuf := rfl
@[simp] theorem State.takeCommand_activity (w : Word) : (s.takeCommand w).activity = .running w s.dropped (Config.tBusy s.draws) := rfl
@[simp] theorem State.takeCommand_draws (w : Word) : (s.takeCommand w).draws = s.draws + 1 := rfl
@[simp] theorem State.takeCommand_host (w : Word) : (s.takeCommand w).host = s.host := rfl
@[simp] theorem State.takeCommand_readLog (w : Word) : (s.takeCommand w).readLog = s.readLog := rfl

/-! ## GET_CODE's effect (R151) -/

@[simp] theorem State.lookUp_phase (x : Sym) : (s.lookUp x).phase = s.phase := rfl
@[simp] theorem State.lookUp_resOk (x : Sym) : (s.lookUp x).resOk = s.resOk := rfl
@[simp] theorem State.lookUp_txnErr (x : Sym) : (s.lookUp x).txnErr = s.txnErr := rfl
@[simp] theorem State.lookUp_cmdErr (x : Sym) : (s.lookUp x).cmdErr = s.cmdErr := rfl
@[simp] theorem State.lookUp_dropped (x : Sym) : (s.lookUp x).dropped = s.dropped := rfl
@[simp] theorem State.lookUp_nsym (x : Sym) : (s.lookUp x).nsym = s.nsym := rfl
@[simp] theorem State.lookUp_total (x : Sym) : (s.lookUp x).total = s.total := rfl
@[simp] theorem State.lookUp_outLen (x : Sym) : (s.lookUp x).outLen = s.outLen := rfl
@[simp] theorem State.lookUp_workLen (x : Sym) : (s.lookUp x).workLen = s.workLen := rfl
@[simp] theorem State.lookUp_resLen (x : Sym) : (s.lookUp x).resLen = s.ct.lenOf x := rfl
@[simp] theorem State.lookUp_resCode (x : Sym) : (s.lookUp x).resCode = (s.ct.bitsOf x).zeroExtend 256 := rfl
@[simp] theorem State.lookUp_freq (x : Sym) : (s.lookUp x).freq = s.freq := rfl
@[simp] theorem State.lookUp_ct (x : Sym) : (s.lookUp x).ct = s.ct := rfl
@[simp] theorem State.lookUp_tb (x : Sym) : (s.lookUp x).tb = s.tb := rfl
@[simp] theorem State.lookUp_root (x : Sym) : (s.lookUp x).root = s.root := rfl
@[simp] theorem State.lookUp_cursor (x : Sym) : (s.lookUp x).cursor = s.cursor := rfl
@[simp] theorem State.lookUp_outbuf (x : Sym) : (s.lookUp x).outbuf = s.outbuf := rfl
@[simp] theorem State.lookUp_activity (x : Sym) : (s.lookUp x).activity = s.activity := rfl
@[simp] theorem State.lookUp_draws (x : Sym) : (s.lookUp x).draws = s.draws := rfl
@[simp] theorem State.lookUp_host (x : Sym) : (s.lookUp x).host = s.host := rfl
@[simp] theorem State.lookUp_readLog (x : Sym) : (s.lookUp x).readLog = s.readLog := rfl

/-! ## the start of a transaction (R152, R171) -/

@[simp] theorem State.beginTxn_phase : (s.beginTxn).phase = s.phase := rfl
@[simp] theorem State.beginTxn_resOk : (s.beginTxn).resOk = false := rfl
@[simp] theorem State.beginTxn_txnErr : (s.beginTxn).txnErr = .none := rfl
@[simp] theorem State.beginTxn_cmdErr : (s.beginTxn).cmdErr = s.cmdErr := rfl
@[simp] theorem State.beginTxn_dropped : (s.beginTxn).dropped = s.dropped := rfl
@[simp] theorem State.beginTxn_nsym : (s.beginTxn).nsym = s.nsym := rfl
@[simp] theorem State.beginTxn_total : (s.beginTxn).total = s.total := rfl
@[simp] theorem State.beginTxn_outLen : (s.beginTxn).outLen = 0 := rfl
@[simp] theorem State.beginTxn_workLen : (s.beginTxn).workLen = 0 := rfl
@[simp] theorem State.beginTxn_resLen : (s.beginTxn).resLen = s.resLen := rfl
@[simp] theorem State.beginTxn_resCode : (s.beginTxn).resCode = s.resCode := rfl
@[simp] theorem State.beginTxn_freq : (s.beginTxn).freq = s.freq := rfl
@[simp] theorem State.beginTxn_ct : (s.beginTxn).ct = s.ct := rfl
@[simp] theorem State.beginTxn_tb : (s.beginTxn).tb = s.tb := rfl
@[simp] theorem State.beginTxn_root : (s.beginTxn).root = s.root := rfl
@[simp] theorem State.beginTxn_cursor : (s.beginTxn).cursor = s.cursor := rfl
@[simp] theorem State.beginTxn_outbuf : (s.beginTxn).outbuf = s.outbuf := rfl
@[simp] theorem State.beginTxn_activity : (s.beginTxn).activity = s.activity := rfl
@[simp] theorem State.beginTxn_draws : (s.beginTxn).draws = s.draws := rfl
@[simp] theorem State.beginTxn_host : (s.beginTxn).host = s.host := rfl
@[simp] theorem State.beginTxn_readLog : (s.beginTxn).readLog = s.readLog := rfl

/-! ## CLEAR's effect (R101) -/

@[simp] theorem State.clearModel_phase : (s.clearModel).phase = .train := rfl
@[simp] theorem State.clearModel_resOk : (s.clearModel).resOk = false := rfl
@[simp] theorem State.clearModel_txnErr : (s.clearModel).txnErr = .none := rfl
@[simp] theorem State.clearModel_cmdErr : (s.clearModel).cmdErr = s.cmdErr := rfl
@[simp] theorem State.clearModel_dropped : (s.clearModel).dropped = false := rfl
@[simp] theorem State.clearModel_nsym : (s.clearModel).nsym = 0 := rfl
@[simp] theorem State.clearModel_total : (s.clearModel).total = 0 := rfl
@[simp] theorem State.clearModel_outLen : (s.clearModel).outLen = 0 := rfl
@[simp] theorem State.clearModel_workLen : (s.clearModel).workLen = 0 := rfl
@[simp] theorem State.clearModel_resLen : (s.clearModel).resLen = 0 := rfl
@[simp] theorem State.clearModel_resCode : (s.clearModel).resCode = 0 := rfl
@[simp] theorem State.clearModel_freq : (s.clearModel).freq = Vector.replicate 256 0 := rfl
@[simp] theorem State.clearModel_ct : (s.clearModel).ct = CodeTable.empty := rfl
@[simp] theorem State.clearModel_tb : (s.clearModel).tb = { s.tb with hsize := 0, next := 0 } := rfl
@[simp] theorem State.clearModel_root : (s.clearModel).root = 0 := rfl
@[simp] theorem State.clearModel_cursor : (s.clearModel).cursor = 0 := rfl
@[simp] theorem State.clearModel_outbuf : (s.clearModel).outbuf = s.outbuf := rfl
@[simp] theorem State.clearModel_activity : (s.clearModel).activity = s.activity := rfl
@[simp] theorem State.clearModel_draws : (s.clearModel).draws = s.draws := rfl
@[simp] theorem State.clearModel_host : (s.clearModel).host = s.host := rfl
@[simp] theorem State.clearModel_readLog : (s.clearModel).readLog = s.readLog := rfl

/-! ## BUILD's effect (R120) -/

@[simp] theorem State.buildModel_phase : (s.buildModel).phase = .ready := rfl
@[simp] theorem State.buildModel_resOk : (s.buildModel).resOk = s.resOk := rfl
@[simp] theorem State.buildModel_txnErr : (s.buildModel).txnErr = s.txnErr := rfl
@[simp] theorem State.buildModel_cmdErr : (s.buildModel).cmdErr = s.cmdErr := rfl
@[simp] theorem State.buildModel_dropped : (s.buildModel).dropped = s.dropped := rfl
@[simp] theorem State.buildModel_nsym : (s.buildModel).nsym = BitVec.ofNat 9 (buildTree s.freqOf s.tb).n := rfl
@[simp] theorem State.buildModel_total : (s.buildModel).total = s.total := rfl
@[simp] theorem State.buildModel_outLen : (s.buildModel).outLen = s.outLen := rfl
@[simp] theorem State.buildModel_workLen : (s.buildModel).workLen = s.workLen := rfl
@[simp] theorem State.buildModel_resLen : (s.buildModel).resLen = s.resLen := rfl
@[simp] theorem State.buildModel_resCode : (s.buildModel).resCode = s.resCode := rfl
@[simp] theorem State.buildModel_freq : (s.buildModel).freq = s.freq := rfl
@[simp] theorem State.buildModel_ct : (s.buildModel).ct = deriveCodes (buildTree s.freqOf s.tb) := rfl
@[simp] theorem State.buildModel_tb : (s.buildModel).tb = (buildTree s.freqOf s.tb).tb := rfl
@[simp] theorem State.buildModel_root : (s.buildModel).root = (buildTree s.freqOf s.tb).root := rfl
@[simp] theorem State.buildModel_cursor : (s.buildModel).cursor = s.cursor := rfl
@[simp] theorem State.buildModel_outbuf : (s.buildModel).outbuf = s.outbuf := rfl
@[simp] theorem State.buildModel_activity : (s.buildModel).activity = s.activity := rfl
@[simp] theorem State.buildModel_draws : (s.buildModel).draws = s.draws := rfl
@[simp] theorem State.buildModel_host : (s.buildModel).host = s.host := rfl
@[simp] theorem State.buildModel_readLog : (s.buildModel).readLog = s.readLog := rfl

/-! ## commit (R156): only OUT_LEN and RES_OK, by the transaction's outcome -/

@[simp] theorem State.commit_phase : s.commit.phase = s.phase := by unfold State.commit; split <;> rfl
@[simp] theorem State.commit_txnErr : s.commit.txnErr = s.txnErr := by unfold State.commit; split <;> rfl
@[simp] theorem State.commit_cmdErr : s.commit.cmdErr = s.cmdErr := by unfold State.commit; split <;> rfl
@[simp] theorem State.commit_dropped : s.commit.dropped = s.dropped := by unfold State.commit; split <;> rfl
@[simp] theorem State.commit_nsym : s.commit.nsym = s.nsym := by unfold State.commit; split <;> rfl
@[simp] theorem State.commit_total : s.commit.total = s.total := by unfold State.commit; split <;> rfl
@[simp] theorem State.commit_workLen : s.commit.workLen = s.workLen := by unfold State.commit; split <;> rfl
@[simp] theorem State.commit_resLen : s.commit.resLen = s.resLen := by unfold State.commit; split <;> rfl
@[simp] theorem State.commit_resCode : s.commit.resCode = s.resCode := by unfold State.commit; split <;> rfl
@[simp] theorem State.commit_freq : s.commit.freq = s.freq := by unfold State.commit; split <;> rfl
@[simp] theorem State.commit_ct : s.commit.ct = s.ct := by unfold State.commit; split <;> rfl
@[simp] theorem State.commit_tb : s.commit.tb = s.tb := by unfold State.commit; split <;> rfl
@[simp] theorem State.commit_root : s.commit.root = s.root := by unfold State.commit; split <;> rfl
@[simp] theorem State.commit_cursor : s.commit.cursor = s.cursor := by unfold State.commit; split <;> rfl
@[simp] theorem State.commit_outbuf : s.commit.outbuf = s.outbuf := by unfold State.commit; split <;> rfl
@[simp] theorem State.commit_activity : s.commit.activity = s.activity := by unfold State.commit; split <;> rfl
@[simp] theorem State.commit_draws : s.commit.draws = s.draws := by unfold State.commit; split <;> rfl
@[simp] theorem State.commit_host : s.commit.host = s.host := by unfold State.commit; split <;> rfl
@[simp] theorem State.commit_readLog : s.commit.readLog = s.readLog := by unfold State.commit; split <;> rfl

theorem State.commit_outLen : s.commit.outLen = if s.txnErr = .none then s.workLen else 0 := by
  unfold State.commit; split <;> rfl

theorem State.commit_resOk : s.commit.resOk = decide (s.txnErr = .none) := by
  unfold State.commit; split <;> simp_all

/-! ## the truncation check (R175): only TXN_ERR -/

@[simp] theorem State.checkTruncated_phase : (s.checkTruncated).phase = s.phase := by unfold State.checkTruncated; split <;> rfl
@[simp] theorem State.checkTruncated_resOk : (s.checkTruncated).resOk = s.resOk := by unfold State.checkTruncated; split <;> rfl
@[simp] theorem State.checkTruncated_cmdErr : (s.checkTruncated).cmdErr = s.cmdErr := by unfold State.checkTruncated; split <;> rfl
@[simp] theorem State.checkTruncated_dropped : (s.checkTruncated).dropped = s.dropped := by unfold State.checkTruncated; split <;> rfl
@[simp] theorem State.checkTruncated_nsym : (s.checkTruncated).nsym = s.nsym := by unfold State.checkTruncated; split <;> rfl
@[simp] theorem State.checkTruncated_total : (s.checkTruncated).total = s.total := by unfold State.checkTruncated; split <;> rfl
@[simp] theorem State.checkTruncated_outLen : (s.checkTruncated).outLen = s.outLen := by unfold State.checkTruncated; split <;> rfl
@[simp] theorem State.checkTruncated_workLen : (s.checkTruncated).workLen = s.workLen := by unfold State.checkTruncated; split <;> rfl
@[simp] theorem State.checkTruncated_resLen : (s.checkTruncated).resLen = s.resLen := by unfold State.checkTruncated; split <;> rfl
@[simp] theorem State.checkTruncated_resCode : (s.checkTruncated).resCode = s.resCode := by unfold State.checkTruncated; split <;> rfl
@[simp] theorem State.checkTruncated_freq : (s.checkTruncated).freq = s.freq := by unfold State.checkTruncated; split <;> rfl
@[simp] theorem State.checkTruncated_ct : (s.checkTruncated).ct = s.ct := by unfold State.checkTruncated; split <;> rfl
@[simp] theorem State.checkTruncated_tb : (s.checkTruncated).tb = s.tb := by unfold State.checkTruncated; split <;> rfl
@[simp] theorem State.checkTruncated_root : (s.checkTruncated).root = s.root := by unfold State.checkTruncated; split <;> rfl
@[simp] theorem State.checkTruncated_cursor : (s.checkTruncated).cursor = s.cursor := by unfold State.checkTruncated; split <;> rfl
@[simp] theorem State.checkTruncated_outbuf : (s.checkTruncated).outbuf = s.outbuf := by unfold State.checkTruncated; split <;> rfl
@[simp] theorem State.checkTruncated_activity : (s.checkTruncated).activity = s.activity := by unfold State.checkTruncated; split <;> rfl
@[simp] theorem State.checkTruncated_draws : (s.checkTruncated).draws = s.draws := by unfold State.checkTruncated; split <;> rfl
@[simp] theorem State.checkTruncated_host : (s.checkTruncated).host = s.host := by unfold State.checkTruncated; split <;> rfl
@[simp] theorem State.checkTruncated_readLog : (s.checkTruncated).readLog = s.readLog := by unfold State.checkTruncated; split <;> rfl

/-! ## TRAIN_SYM's effect (R105): only CMD_ERR, FREQ and TOTAL -/

@[simp] theorem State.countSymbol_phase (x : Sym) : (State.countSymbol x s).phase = s.phase := by unfold State.countSymbol; split <;> rfl
@[simp] theorem State.countSymbol_resOk (x : Sym) : (State.countSymbol x s).resOk = s.resOk := by unfold State.countSymbol; split <;> rfl
@[simp] theorem State.countSymbol_txnErr (x : Sym) : (State.countSymbol x s).txnErr = s.txnErr := by unfold State.countSymbol; split <;> rfl
@[simp] theorem State.countSymbol_dropped (x : Sym) : (State.countSymbol x s).dropped = s.dropped := by unfold State.countSymbol; split <;> rfl
@[simp] theorem State.countSymbol_nsym (x : Sym) : (State.countSymbol x s).nsym = s.nsym := by unfold State.countSymbol; split <;> rfl
@[simp] theorem State.countSymbol_outLen (x : Sym) : (State.countSymbol x s).outLen = s.outLen := by unfold State.countSymbol; split <;> rfl
@[simp] theorem State.countSymbol_workLen (x : Sym) : (State.countSymbol x s).workLen = s.workLen := by unfold State.countSymbol; split <;> rfl
@[simp] theorem State.countSymbol_resLen (x : Sym) : (State.countSymbol x s).resLen = s.resLen := by unfold State.countSymbol; split <;> rfl
@[simp] theorem State.countSymbol_resCode (x : Sym) : (State.countSymbol x s).resCode = s.resCode := by unfold State.countSymbol; split <;> rfl
@[simp] theorem State.countSymbol_ct (x : Sym) : (State.countSymbol x s).ct = s.ct := by unfold State.countSymbol; split <;> rfl
@[simp] theorem State.countSymbol_tb (x : Sym) : (State.countSymbol x s).tb = s.tb := by unfold State.countSymbol; split <;> rfl
@[simp] theorem State.countSymbol_root (x : Sym) : (State.countSymbol x s).root = s.root := by unfold State.countSymbol; split <;> rfl
@[simp] theorem State.countSymbol_cursor (x : Sym) : (State.countSymbol x s).cursor = s.cursor := by unfold State.countSymbol; split <;> rfl
@[simp] theorem State.countSymbol_outbuf (x : Sym) : (State.countSymbol x s).outbuf = s.outbuf := by unfold State.countSymbol; split <;> rfl
@[simp] theorem State.countSymbol_activity (x : Sym) : (State.countSymbol x s).activity = s.activity := by unfold State.countSymbol; split <;> rfl
@[simp] theorem State.countSymbol_draws (x : Sym) : (State.countSymbol x s).draws = s.draws := by unfold State.countSymbol; split <;> rfl
@[simp] theorem State.countSymbol_host (x : Sym) : (State.countSymbol x s).host = s.host := by unfold State.countSymbol; split <;> rfl
@[simp] theorem State.countSymbol_readLog (x : Sym) : (State.countSymbol x s).readLog = s.readLog := by unfold State.countSymbol; split <;> rfl

end Sys2Proof.Machine
end

