-- ==== Sys2Proof/Laws/Memory.lean ====
section
/-! SUPPORT. The laws of the block's memories: OUTBUF's list (read after write, the canonical form), FREQ, the code table,
NODE and HEAP (10_state.md R30 to R39). -/

namespace Sys2Proof.Machine

/-! ## OUTBUF -/

theorem Memory.wf_cons {a : Nat} {v : Byte} {m : Memory} :
    Memory.wf ((a, v) :: m) = true ↔ v ≠ Memory.unlisted ∧ (∀ c ∈ m, a < c.1) ∧ Memory.wf m = true := by
  simp [Memory.wf, and_assoc]

/-- Below the least listed address every byte is unlisted. -/
theorem Memory.read_below {m : Memory} {k : Nat} (h : ∀ c ∈ m, k < c.1) : Memory.read m k = Memory.unlisted := by
  induction m with
  | nil => rfl
  | cons c m ih =>
    have hc : k < c.1 := h c (by simp)
    have : c.1 ≠ k := by omega
    simp [Memory.read, this, ih fun c hc => h c (by simp [hc])]

/-- OUTBUF[k] after OUTBUF[k] <- v is v (R15, R39). -/
theorem Memory.read_write_self {m : Memory} (hm : m.wf = true) (k : Nat) (v : Byte) : (m.write k v).read k = v := by
  induction m with
  | nil =>
    by_cases h : v = Memory.unlisted
    · simp [Memory.write, h, Memory.read]
    · simp [Memory.write, h, Memory.read]
  | cons c m ih =>
    obtain ⟨a, w⟩ := c
    obtain ⟨hw, ha, hm'⟩ := Memory.wf_cons.1 hm
    rcases Nat.lt_trichotomy k a with hk | hk | hk
    · by_cases h : v = Memory.unlisted
      · have hka : a ≠ k := by omega
        have := Memory.read_below (m := m) (k := k) fun c hc => by have := ha c hc; omega
        simp [Memory.write, hk, h, Memory.read, hka, this]
      · simp [Memory.write, hk, h, Memory.read]
    · subst hk
      by_cases h : v = Memory.unlisted
      · simp [Memory.write, h, Memory.read_below ha]
      · simp [Memory.write, h, Memory.read]
    · have h1 : ¬ k < a := by omega
      have h2 : ¬ k = a := by omega
      have h3 : ¬ a = k := by omega
      simp [Memory.write, h1, h2, Memory.read, h3, ih hm']

/-- OUTBUF[j] is unchanged by OUTBUF[k] <- v for another j (R15, R39). -/
theorem Memory.read_write_of_ne {m : Memory} (hm : m.wf = true) {j k : Nat} (h : j ≠ k) (v : Byte) :
    (m.write k v).read j = m.read j := by
  induction m with
  | nil =>
    have : ¬ k = j := by omega
    by_cases hv : v = Memory.unlisted <;> simp [Memory.write, hv, Memory.read, this]
  | cons c m ih =>
    obtain ⟨a, w⟩ := c
    obtain ⟨hw, ha, hm'⟩ := Memory.wf_cons.1 hm
    have hkj : ¬ k = j := by omega
    rcases Nat.lt_trichotomy k a with hk | hk | hk
    · by_cases hv : v = Memory.unlisted <;> simp [Memory.write, hk, hv, Memory.read, hkj]
    · subst hk
      by_cases hv : v = Memory.unlisted <;> simp [Memory.write, hv, Memory.read, hkj]
    · have h1 : ¬ k < a := by omega
      have h2 : ¬ k = a := by omega
      simp [Memory.write, h1, h2, Memory.read, ih hm']

/-- A listed address after a write is the one written or was listed before. -/
theorem Memory.mem_write {m : Memory} {k : Nat} {v : Byte} {c : Host.Cell} (h : c ∈ m.write k v) : c.1 = k ∨ c ∈ m := by
  induction m with
  | nil =>
    by_cases hv : v = Memory.unlisted
    · simp [Memory.write, hv] at h
    · simp [Memory.write, hv] at h; simp [h]
  | cons d m ih =>
    obtain ⟨a, w⟩ := d
    simp only [Memory.write] at h
    split at h
    · split at h
      · exact .inr h
      · rcases List.mem_cons.1 h with rfl | h
        · exact .inl rfl
        · exact .inr h
    · split at h
      · split at h
        · exact .inr (List.mem_cons_of_mem _ h)
        · rcases List.mem_cons.1 h with rfl | h
          · exact .inl rfl
          · exact .inr (List.mem_cons_of_mem _ h)
      · rcases List.mem_cons.1 h with rfl | h
        · exact .inr (by simp)
        · rcases ih h with h | h
          · exact .inl h
          · exact .inr (List.mem_cons_of_mem _ h)

/-- A write keeps the canonical form. -/
theorem Memory.wf_write {m : Memory} (hm : m.wf = true) (k : Nat) (v : Byte) : (m.write k v).wf = true := by
  induction m with
  | nil => by_cases hv : v = Memory.unlisted <;> simp [Memory.write, hv, Memory.wf]
  | cons c m ih =>
    obtain ⟨a, w⟩ := c
    obtain ⟨hw, ha, hm'⟩ := Memory.wf_cons.1 hm
    rcases Nat.lt_trichotomy k a with hk | hk | hk
    · by_cases hv : v = Memory.unlisted
      · simpa [Memory.write, hk, hv] using hm
      · rw [show Memory.write ((a, w) :: m) k v = (k, v) :: (a, w) :: m by simp [Memory.write, hk, hv]]
        refine Memory.wf_cons.2 ⟨hv, fun c hc => ?_, hm⟩
        rcases List.mem_cons.1 hc with rfl | hc
        · exact hk
        · exact Nat.lt_trans hk (ha c hc)
    · subst hk
      by_cases hv : v = Memory.unlisted
      · simpa [Memory.write, hv] using hm'
      · rw [show Memory.write ((k, w) :: m) k v = (k, v) :: m by simp [Memory.write, hv]]
        exact Memory.wf_cons.2 ⟨hv, ha, hm'⟩
    · have h1 : ¬ k < a := by omega
      have h2 : ¬ k = a := by omega
      rw [show Memory.write ((a, w) :: m) k v = (a, w) :: Memory.write m k v by simp [Memory.write, h1, h2]]
      refine Memory.wf_cons.2 ⟨hw, fun c hc => ?_, ih hm'⟩
      rcases Memory.mem_write hc with hc | hc
      · omega
      · exact ha c hc

/-- A write within OUT_CAP keeps every listed address within OUT_CAP. -/
theorem Memory.inCap_write {m : Memory} (hm : m.inCap = true) {k : Nat} (hk : k < Config.outCap) (v : Byte) :
    (m.write k v).inCap = true := by
  simp only [Memory.inCap, List.all_eq_true, decide_eq_true_eq] at hm ⊢
  intro c hc
  rcases Memory.mem_write hc with h | h
  · omega
  · exact hm c h

theorem Memory.wf_nil : Memory.wf [] = true := rfl

/-- Reset memory is in canonical form. -/
theorem Memory.reset_wf : State.reset.outbuf.wf = true := rfl

/-! ## FREQ and the code table -/

/-- FREQ[x] after FREQ[x] <- v is v. -/
theorem State.freqOf_setFreq_self (s : State) (x : Sym) (v : Count) : (s.setFreq x v).freqOf x = v := by
  simp [State.setFreq, State.freqOf]

/-- FREQ[y] is unchanged by FREQ[x] <- v for another y. -/
theorem State.freqOf_setFreq_of_ne (s : State) {x y : Sym} (h : y ≠ x) (v : Count) :
    (s.setFreq x v).freqOf y = s.freqOf y := by
  have : x.toNat ≠ y.toNat := fun hxy => h (BitVec.eq_of_toNat_eq hxy.symm)
  simp [State.setFreq, State.freqOf, Vector.getElem_set_ne, this]

theorem CodeTable.lenOf_setCode_self (t : CodeTable) (x : Sym) (l : BitVec 8) (b : CodeBits) :
    (t.setCode x l b).lenOf x = l := by
  simp [CodeTable.setCode, CodeTable.lenOf]

theorem CodeTable.bitsOf_setCode_self (t : CodeTable) (x : Sym) (l : BitVec 8) (b : CodeBits) :
    (t.setCode x l b).bitsOf x = b := by
  simp [CodeTable.setCode, CodeTable.bitsOf]

theorem CodeTable.lenOf_setCode_of_ne (t : CodeTable) {x y : Sym} (h : y ≠ x) (l : BitVec 8) (b : CodeBits) :
    (t.setCode x l b).lenOf y = t.lenOf y := by
  have : x.toNat ≠ y.toNat := fun hxy => h (BitVec.eq_of_toNat_eq hxy.symm)
  simp [CodeTable.setCode, CodeTable.lenOf, Vector.getElem_set_ne, this]

theorem CodeTable.bitsOf_setCode_of_ne (t : CodeTable) {x y : Sym} (h : y ≠ x) (l : BitVec 8) (b : CodeBits) :
    (t.setCode x l b).bitsOf y = t.bitsOf y := by
  have : x.toNat ≠ y.toNat := fun hxy => h (BitVec.eq_of_toNat_eq hxy.symm)
  simp [CodeTable.setCode, CodeTable.bitsOf, Vector.getElem_set_ne, this]

@[simp] theorem CodeTable.lenOf_empty (x : Sym) : CodeTable.empty.lenOf x = 0 := by
  simp [CodeTable.empty, CodeTable.lenOf]

@[simp] theorem CodeTable.bitsOf_empty (x : Sym) : CodeTable.empty.bitsOf x = 0 := by
  simp [CodeTable.empty, CodeTable.bitsOf]

/-- Every symbol is one of the 256 (R10). -/
theorem mem_allSyms (x : Sym) : x ∈ allSyms :=
  List.mem_map.2 ⟨x.toNat, List.mem_range.2 x.isLt, by simp⟩

/-! ## NODE and HEAP -/

theorem TreeBuilder.nodeAt_setNode_self (b : TreeBuilder) {i : NodeIdx} (h : i.toNat < 511) (x : Node) :
    (b.setNode i x).nodeAt i = x := by
  simp [TreeBuilder.setNode, TreeBuilder.nodeAt, h]

theorem TreeBuilder.nodeAt_setNode_of_ne (b : TreeBuilder) {i j : NodeIdx} (h : j ≠ i) (x : Node) :
    (b.setNode i x).nodeAt j = b.nodeAt j := by
  have : i.toNat ≠ j.toNat := fun hij => h (BitVec.eq_of_toNat_eq hij.symm)
  simp only [TreeBuilder.setNode, TreeBuilder.nodeAt]
  split
  · simp [this]
  · rfl

theorem TreeBuilder.heapAt_setHeap_self (b : TreeBuilder) {i : Nat} (h : i < 256) (x : NodeIdx) :
    (b.setHeap i x).heapAt i = x := by
  simp [TreeBuilder.setHeap, TreeBuilder.heapAt, h]

theorem TreeBuilder.heapAt_setHeap_of_ne (b : TreeBuilder) {i j : Nat} (h : j ≠ i) (x : NodeIdx) :
    (b.setHeap i x).heapAt j = b.heapAt j := by
  have : i ≠ j := by omega
  simp only [TreeBuilder.setHeap, TreeBuilder.heapAt]
  split
  · simp [this]
  · rfl

@[simp] theorem TreeBuilder.setHeap_node (b : TreeBuilder) (i : Nat) (x : NodeIdx) : (b.setHeap i x).node = b.node := rfl
@[simp] theorem TreeBuilder.setHeap_hsize (b : TreeBuilder) (i : Nat) (x : NodeIdx) : (b.setHeap i x).hsize = b.hsize := rfl
@[simp] theorem TreeBuilder.setHeap_next (b : TreeBuilder) (i : Nat) (x : NodeIdx) : (b.setHeap i x).next = b.next := rfl
@[simp] theorem TreeBuilder.swapHeap_node (b : TreeBuilder) (i j : Nat) : (b.swapHeap i j).node = b.node := rfl
@[simp] theorem TreeBuilder.swapHeap_hsize (b : TreeBuilder) (i j : Nat) : (b.swapHeap i j).hsize = b.hsize := rfl
@[simp] theorem TreeBuilder.swapHeap_next (b : TreeBuilder) (i j : Nat) : (b.swapHeap i j).next = b.next := rfl
@[simp] theorem TreeBuilder.setNode_heap (b : TreeBuilder) (i : NodeIdx) (x : Node) : (b.setNode i x).heap = b.heap := rfl
@[simp] theorem TreeBuilder.setNode_hsize (b : TreeBuilder) (i : NodeIdx) (x : Node) : (b.setNode i x).hsize = b.hsize := rfl
@[simp] theorem TreeBuilder.setNode_next (b : TreeBuilder) (i : NodeIdx) (x : Node) : (b.setNode i x).next = b.next := rfl

/-- Reading NODE depends on the arena alone. -/
theorem TreeBuilder.nodeAt_congr {a b : TreeBuilder} (h : a.node = b.node) (i : NodeIdx) : a.nodeAt i = b.nodeAt i := by
  simp [TreeBuilder.nodeAt, h]

end Sys2Proof.Machine
end

