-- ==== Sys2Proof/Laws/Ops.lean ====
section
/-! SUPPORT. What each shared operation of running a command can do, said once (60_exceptions.md R202 to R207). -/

namespace Sys2Proof.Machine

/-! ## accept (R202, R203) -/

theorem accept_of_legal {i : Instr} {body : State → State} {s : State} (h : legalPhase i s.phase = true) :
    accept i body s = .next (body s.accepted) := by
  simp [accept, h]

theorem accept_of_illegal {i : Instr} {body : State → State} {s : State} (h : legalPhase i s.phase = false) :
    accept i body s = .next (s.raiseCmdError .badPhase) := by
  simp [accept, h]

/-- A command always answers a next state: its effect on the accepted state, or a rejection that changes CMD_ERR alone. -/
theorem accept_cases {i : Instr} {body : State → State} {s t : State} (h : accept i body s = .next t) :
    (legalPhase i s.phase = true ∧ t = body s.accepted) ∨
      (legalPhase i s.phase = false ∧ t = s.raiseCmdError .badPhase) := by
  cases hl : legalPhase i s.phase with
  | true => rw [accept_of_legal hl] at h; cases h; exact .inl ⟨rfl, rfl⟩
  | false => rw [accept_of_illegal hl] at h; cases h; exact .inr ⟨rfl, rfl⟩

theorem accept_next (i : Instr) (body : State → State) (s : State) : ∃ t, accept i body s = .next t := by
  unfold accept; split <;> exact ⟨_, rfl⟩

/-! ## transact (R205, R207) -/

theorem transact_of_failed {body : State → Except TxnErr State} {s : State} (h : s.txnErr ≠ .none) :
    transact body s = s := by
  simp [transact, h]

theorem transact_of_ok {body : State → Except TxnErr State} {s t : State} (h : s.txnErr = .none) (hb : body s = .ok t) :
    transact body s = t := by
  simp [transact, h, hb]

theorem transact_of_error {body : State → Except TxnErr State} {s : State} {e : TxnErr} (h : s.txnErr = .none)
    (hb : body s = .error e) : transact body s = s.raiseTxnError e := by
  simp [transact, h, hb]

/-- A command of an open transaction does nothing (already failed), succeeds, or latches one error with no other effect. -/
theorem transact_cases (body : State → Except TxnErr State) (s : State) :
    (s.txnErr ≠ .none ∧ transact body s = s) ∨
      (s.txnErr = .none ∧ ∃ t, body s = .ok t ∧ transact body s = t) ∨
        (s.txnErr = .none ∧ ∃ e, body s = .error e ∧ transact body s = s.raiseTxnError e) := by
  by_cases h : s.txnErr = .none
  · cases hb : body s with
    | ok t => exact .inr (.inl ⟨h, t, rfl, transact_of_ok h hb⟩)
    | error e => exact .inr (.inr ⟨h, e, rfl, transact_of_error h hb⟩)
  · exact .inl ⟨h, transact_of_failed h⟩

/-! ## The data commands (R153, R172 to R174) -/

/-- What appending a codeword can do (R153). -/
theorem State.appendCode_cases (x : Sym) (s : State) :
    ((s.ct.lenOf x).toNat = 0 ∧ s.appendCode x = .error .unknownSymbol) ∨
      ((s.ct.lenOf x).toNat ≠ 0 ∧ Config.outCap < s.workLen.toNat + (s.ct.lenOf x).toNat ∧
        s.appendCode x = .error .outputOverflow) ∨
      ((s.ct.lenOf x).toNat ≠ 0 ∧ s.workLen.toNat + (s.ct.lenOf x).toNat ≤ Config.outCap ∧
        s.appendCode x = .ok { s with
          outbuf := shiftOut s.outbuf s.workLen.toNat (s.ct.bitsOf x) (s.ct.lenOf x).toNat
          workLen := s.workLen + BitVec.ofNat 17 (s.ct.lenOf x).toNat }) := by
  by_cases h0 : (s.ct.lenOf x).toNat = 0
  · exact .inl ⟨h0, by simp only [State.appendCode, h0, if_pos]⟩
  · by_cases h1 : Config.outCap < s.workLen.toNat + (s.ct.lenOf x).toNat
    · exact .inr (.inl ⟨h0, h1, by simp only [State.appendCode, h0, h1, if_true, if_false]⟩)
    · exact .inr (.inr ⟨h0, by omega, by simp only [State.appendCode, h0, h1, if_false]⟩)

/-- What emit can do (R174). -/
theorem State.emit_cases (v : Byte) (s : State) :
    (Config.outCap ≤ s.workLen.toNat ∧ s.emit v = .error .outputOverflow) ∨
      (s.workLen.toNat < Config.outCap ∧
        s.emit v = .ok { s with outbuf := s.outbuf.write s.workLen.toNat v, workLen := s.workLen + 1 }) := by
  by_cases h : Config.outCap ≤ s.workLen.toNat
  · exact .inl ⟨h, by simp [State.emit, h]⟩
  · exact .inr ⟨by omega, by simp [State.emit, h]⟩

theorem tokenBit_token (b : Bool) : tokenBit (if b then 0x31 else 0x30) = some b := by cases b <;> rfl

/-- The token of a bit is the byte R88 gives it. -/
theorem bitToken_eq (b : Bool) : bitToken b = if b then 0x31 else 0x30 := by cases b <;> rfl

theorem State.takeToken_of_empty {s : State} (h : s.nsym = 0) (t : Byte) : s.takeToken t = .error .emptyModel := by
  rw [State.takeToken, if_pos h]

theorem State.takeToken_of_invalid {s : State} {t : Byte} (h : s.nsym ≠ 0) (ht : tokenBit t = none) :
    s.takeToken t = .error .invalidBitToken := by
  rw [State.takeToken, if_neg h, ht]

theorem State.takeToken_of_single {s : State} {t : Byte} {b : Bool} (h : s.nsym = 1) (ht : tokenBit t = some b) :
    s.takeToken t = s.singleSymbolStep b := by
  have h0 : s.nsym ≠ 0 := by rw [h]; decide
  simp only [State.takeToken, if_neg h0, ht, if_pos h]

theorem State.takeToken_of_tree {s : State} {t : Byte} {b : Bool} (h0 : s.nsym ≠ 0) (h1 : s.nsym ≠ 1)
    (ht : tokenBit t = some b) : s.takeToken t = s.treeStep b := by
  simp only [State.takeToken, if_neg h0, ht, if_neg h1]

theorem State.treeStep_of_internal {s : State} {b : Bool}
    (h : (s.tb.nodeAt (s.tb.child s.cursor b)).isLeaf = false) :
    s.treeStep b = .ok { s with cursor := s.tb.child s.cursor b } := by
  simp [State.treeStep, h]

theorem State.treeStep_of_leaf {s : State} {b : Bool} (h : (s.tb.nodeAt (s.tb.child s.cursor b)).isLeaf = true)
    (hw : s.workLen.toNat < Config.outCap) :
    s.treeStep b = .ok { s with
      outbuf := s.outbuf.write s.workLen.toNat (s.tb.nodeAt (s.tb.child s.cursor b)).sym
      workLen := s.workLen + 1
      cursor := s.root } := by
  rcases s.emit_cases (s.tb.nodeAt (s.tb.child s.cursor b)).sym with ⟨hc, _⟩ | ⟨_, he⟩
  · omega
  · simp [State.treeStep, h, he]

theorem State.treeStep_of_full {s : State} {b : Bool} (h : (s.tb.nodeAt (s.tb.child s.cursor b)).isLeaf = true)
    (hw : Config.outCap ≤ s.workLen.toNat) : s.treeStep b = .error .outputOverflow := by
  rcases s.emit_cases (s.tb.nodeAt (s.tb.child s.cursor b)).sym with ⟨_, he⟩ | ⟨hc, _⟩
  · simp [State.treeStep, h, he]
  · omega

/-- What a successful bit token can do (R172 to R174): emit one symbol, or move the cursor to an internal node. -/
theorem State.takeToken_ok {t : Byte} {s u : State} (h : s.takeToken t = .ok u) :
    (∃ v c, s.workLen.toNat < Config.outCap ∧
        u = { s with outbuf := s.outbuf.write s.workLen.toNat v, workLen := s.workLen + 1, cursor := c } ∧
          (c = s.cursor ∧ s.nsym = 1 ∨ c = s.root ∧ s.nsym ≠ 1)) ∨
      (∃ b, tokenBit t = some b ∧ s.nsym ≠ 1 ∧ (s.tb.nodeAt (s.tb.child s.cursor b)).isLeaf = false ∧
        u = { s with cursor := s.tb.child s.cursor b }) := by
  unfold State.takeToken at h
  split at h
  · cases h
  · cases htb : tokenBit t with
    | none => rw [htb] at h; cases h
    | some b =>
      rw [htb] at h
      by_cases h1 : s.nsym = 1
      · simp only [h1, if_true, State.singleSymbolStep] at h
        split at h
        · cases h
        · rcases s.emit_cases (s.tb.nodeAt s.root).sym with ⟨_, he⟩ | ⟨hlt, he⟩
          · rw [he] at h; cases h
          · rw [he] at h; cases h
            exact .inl ⟨_, s.cursor, hlt, rfl, .inl ⟨rfl, h1⟩⟩
      · simp only [h1, if_false, State.treeStep] at h
        split at h
        · rcases s.emit_cases (s.tb.nodeAt (s.tb.child s.cursor b)).sym with ⟨_, he⟩ | ⟨hlt, he⟩
          · rw [he] at h; cases h
          · rw [he] at h; cases h
            exact .inl ⟨_, s.root, hlt, rfl, .inr ⟨rfl, h1⟩⟩
        · rename_i hl
          cases h
          exact .inr ⟨b, rfl, h1, by simpa using hl, rfl⟩

/-! ## commit (R156) -/

theorem State.commit_of_ok {s : State} (h : s.txnErr = .none) :
    s.commit = { s with outLen := s.workLen, resOk := true } := by
  simp [State.commit, h]

theorem State.commit_of_failed {s : State} (h : s.txnErr ≠ .none) :
    s.commit = { s with outLen := 0, resOk := false } := by
  simp [State.commit, h]

/-! ## The truncation check (R175) -/

theorem State.checkTruncated_of_inside {s : State} (h : s.txnErr = .none) (hn : 2 ≤ s.nsym) (hc : s.cursor ≠ s.root) :
    s.checkTruncated = s.raiseTxnError .truncatedStream := by
  rw [State.checkTruncated, if_pos ⟨h, hn, hc⟩]

theorem State.checkTruncated_of_failed {s : State} (h : s.txnErr ≠ .none) : s.checkTruncated = s := by
  rw [State.checkTruncated, if_neg fun hh => h hh.1]

theorem State.checkTruncated_of_boundary {s : State} (h : ¬ (2 ≤ s.nsym ∧ s.cursor ≠ s.root)) : s.checkTruncated = s := by
  rw [State.checkTruncated, if_neg fun hh => h hh.2]

/-! ## Each command over the shared operations (R83) -/

theorem exec_clear (s : State) : exec .clear s = accept .clear State.clearModel s := rfl
theorem exec_trainSym (x : Sym) (s : State) : exec (.trainSym x) s = accept (.trainSym x) (State.countSymbol x) s := rfl
theorem exec_build (s : State) : exec .build s = accept .build State.buildModel s := rfl
theorem exec_getCode (x : Sym) (s : State) : exec (.getCode x) s = accept (.getCode x) (State.lookUp x) s := rfl
theorem exec_encBegin (s : State) :
    exec .encBegin s = accept .encBegin (fun s => { s.beginTxn with phase := .enc }) s := rfl
theorem exec_encSym (x : Sym) (s : State) :
    exec (.encSym x) s = accept (.encSym x) (transact (State.appendCode x)) s := rfl
theorem exec_encEnd (s : State) : exec .encEnd s = accept .encEnd (fun s => { s.commit with phase := .ready }) s := rfl
theorem exec_decBegin (s : State) :
    exec .decBegin s = accept .decBegin (fun s => { s.beginTxn with cursor := s.root, phase := .dec }) s := rfl
theorem exec_decBit (t : Byte) (s : State) :
    exec (.decBit t) s = accept (.decBit t) (transact (State.takeToken t)) s := rfl
theorem exec_decEnd (s : State) :
    exec .decEnd s = accept .decEnd (fun s => { s.checkTruncated.commit with phase := .ready }) s := rfl

/-- Every command goes through `accept`: it is run on the accepted state, or rejected. -/
theorem exec_eq_accept (i : Instr) : ∃ body, ∀ s, exec i s = accept i body s := by
  cases i with
  | clear => exact ⟨_, exec_clear⟩
  | trainSym x => exact ⟨_, exec_trainSym x⟩
  | build => exact ⟨_, exec_build⟩
  | getCode x => exact ⟨_, exec_getCode x⟩
  | encBegin => exact ⟨_, exec_encBegin⟩
  | encSym x => exact ⟨_, exec_encSym x⟩
  | encEnd => exact ⟨_, exec_encEnd⟩
  | decBegin => exact ⟨_, exec_decBegin⟩
  | decBit t => exact ⟨_, exec_decBit t⟩
  | decEnd => exact ⟨_, exec_decEnd⟩

end Sys2Proof.Machine
end

