-- ==== Sys2Proof/Laws/Build.lean ====
section
/-! SUPPORT. The small laws of BUILD's parts: what the heap operations and the node writes leave unchanged
(41_build.md R121 to R128). -/

namespace Sys2Proof.Machine

/-! ## The heap operations move heap entries only (R127, R128) -/

@[simp] theorem siftUp_node (fuel i : Nat) (b : TreeBuilder) : (siftUp fuel i b).node = b.node := by
  induction fuel generalizing i b with
  | zero => rfl
  | succ n ih => simp only [siftUp]; split <;> [rfl; (split <;> simp [ih])]

@[simp] theorem siftUp_hsize (fuel i : Nat) (b : TreeBuilder) : (siftUp fuel i b).hsize = b.hsize := by
  induction fuel generalizing i b with
  | zero => rfl
  | succ n ih => simp only [siftUp]; split <;> [rfl; (split <;> simp [ih])]

@[simp] theorem siftUp_next (fuel i : Nat) (b : TreeBuilder) : (siftUp fuel i b).next = b.next := by
  induction fuel generalizing i b with
  | zero => rfl
  | succ n ih => simp only [siftUp]; split <;> [rfl; (split <;> simp [ih])]

@[simp] theorem siftDown_node (fuel i : Nat) (b : TreeBuilder) : (siftDown fuel i b).node = b.node := by
  induction fuel generalizing i b with
  | zero => rfl
  | succ n ih => simp only [siftDown]; split <;> simp [ih]

@[simp] theorem siftDown_hsize (fuel i : Nat) (b : TreeBuilder) : (siftDown fuel i b).hsize = b.hsize := by
  induction fuel generalizing i b with
  | zero => rfl
  | succ n ih => simp only [siftDown]; split <;> simp [ih]

@[simp] theorem siftDown_next (fuel i : Nat) (b : TreeBuilder) : (siftDown fuel i b).next = b.next := by
  induction fuel generalizing i b with
  | zero => rfl
  | succ n ih => simp only [siftDown]; split <;> simp [ih]

@[simp] theorem heapPush_node (x : NodeIdx) (b : TreeBuilder) : (heapPush x b).node = b.node := by simp [heapPush]
@[simp] theorem heapPush_hsize (x : NodeIdx) (b : TreeBuilder) : (heapPush x b).hsize = b.hsize + 1 := by simp [heapPush]
@[simp] theorem heapPush_next (x : NodeIdx) (b : TreeBuilder) : (heapPush x b).next = b.next := by simp [heapPush]

@[simp] theorem heapPop_node (b : TreeBuilder) : (heapPop b).2.node = b.node := by
  simp only [heapPop]; split <;> simp

@[simp] theorem heapPop_hsize (b : TreeBuilder) : (heapPop b).2.hsize = b.hsize - 1 := by
  simp only [heapPop]; split <;> simp

@[simp] theorem heapPop_next (b : TreeBuilder) : (heapPop b).2.next = b.next := by
  simp only [heapPop]; split <;> simp

@[simp] theorem heapPop_fst (b : TreeBuilder) : (heapPop b).1 = b.heapAt 0 := by
  simp only [heapPop]; split <;> rfl

/-! ## Node writes (R121, R125) -/

@[simp] theorem TreeBuilder.writeLeaf_hsize (b : TreeBuilder) (i : NodeIdx) (x : Sym) (w : Count) :
    (b.writeLeaf i x w).hsize = b.hsize := rfl

@[simp] theorem TreeBuilder.writeInternal_hsize (b : TreeBuilder) (i : NodeIdx) (w : Count) (l r : NodeIdx) :
    (b.writeInternal i w l r).hsize = b.hsize := rfl

@[simp] theorem TreeBuilder.writeInternal_next (b : TreeBuilder) (i : NodeIdx) (w : Count) (l r : NodeIdx) :
    (b.writeInternal i w l r).next = b.next := rfl

/-- One pass of the merge loop lowers HSIZE by one and takes one node (R125). -/
theorem mergeStep_hsize (b : TreeBuilder) : (mergeStep b).hsize = b.hsize - 1 := by
  simp only [mergeStep, heapPush_hsize, TreeBuilder.writeInternal_hsize, heapPop_hsize]
  bv_omega

theorem mergeStep_next (b : TreeBuilder) : (mergeStep b).next = b.next + 1 := by
  simp [mergeStep]

/-- Leaf creation makes at most one leaf per symbol of the list (R121). -/
theorem makeLeaves_count_le (freq : Sym → Count) (xs : List Sym) (n : Nat) (b : TreeBuilder) :
    n ≤ (makeLeaves freq xs n b).2 ∧ (makeLeaves freq xs n b).2 ≤ n + xs.length := by
  induction xs generalizing n b with
  | nil => simp [makeLeaves]
  | cons x xs ih =>
    simp only [makeLeaves, List.length_cons]
    split
    · have := ih (n + 1) (b.writeLeaf (BitVec.ofNat 9 n) x (freq x)); omega
    · have := ih n b; omega

end Sys2Proof.Machine
end

