-- ==== Sys2Proof/Laws/Bus.lean ====
section
/-! SUPPORT. What a step, the host's actions and the register window can do, said once (20_memory.md R60 to R76). -/

namespace Sys2Proof.Machine

/-! ## Writes (R63 to R65, R201) -/

/-- What a bus write can do: nothing, set DROPPED, or take a command. -/
theorem memWrite_cases (s : State) (off : Offset) (v : Word) :
    (alignedOffset off ≠ 0 ∧ memWrite s off v = s) ∨
      (alignedOffset off = 0 ∧ s.busy = true ∧ memWrite s off v = s.dropWrite) ∨
        (alignedOffset off = 0 ∧ s.busy = false ∧ memWrite s off v = s.takeCommand v) := by
  unfold memWrite
  by_cases h : alignedOffset off = 0
  · cases hb : s.busy
    · exact .inr (.inr ⟨h, rfl, by simp [h]⟩)
    · exact .inr (.inl ⟨h, rfl, by simp [h]⟩)
  · exact .inl ⟨h, by simp [h]⟩

/-! ## BUSY (R24) -/

theorem State.busy_false_iff (s : State) : s.busy = false ↔ s.activity = .idle := by
  unfold State.busy; cases s.activity <;> simp

theorem State.busy_of_running {s : State} {w : Word} {d : Bool} {n : Nat} (h : s.activity = .running w d n) : s.busy = true := by
  simp [State.busy, h]

theorem State.busy_of_initialising {s : State} {n : Nat} (h : s.activity = .initialising n) : s.busy = true := by
  simp [State.busy, h]

/-! ## What STATUS shows for DROPPED (R70, R232, R236) -/

theorem State.shownDropped_of_idle {s : State} (h : s.activity = .idle) : s.shownDropped = s.dropped := by
  simp [State.shownDropped, h]

theorem State.shownDropped_of_running {s : State} {w : Word} {d : Bool} {n : Nat} (h : s.activity = .running w d n) :
    s.shownDropped = d := by
  simp [State.shownDropped, h]

theorem State.shownDropped_of_initialising {s : State} {n : Nat} (h : s.activity = .initialising n) :
    s.shownDropped = false := by
  simp [State.shownDropped, h]

@[simp] theorem State.takeCommand_shownDropped (s : State) (w : Word) : (s.takeCommand w).shownDropped = s.dropped := rfl
@[simp] theorem State.hardReset_shownDropped (s : State) : (State.hardReset s).shownDropped = false := rfl

/-- A change of what the sequencer is doing, of DROPPED and of the host's side leaves every register reading as before, if BUSY
and what STATUS shows for DROPPED are as before. -/
theorem memRead_of_same_status (s : State) (a : Activity) (d : Bool) (n : Nat) (host : List HostAction) (log : List Word)
    (hb : State.busy { s with activity := a } = s.busy)
    (hd : State.shownDropped { s with activity := a, dropped := d } = s.shownDropped) (off : Offset) :
    memRead { s with activity := a, dropped := d, draws := n, host := host, readLog := log } off = memRead s off := by
  have hs : State.statusWord { s with activity := a, dropped := d, draws := n, host := host, readLog := log } =
      s.statusWord := by
    unfold State.statusWord
    rw [← hb, ← hd]
    rfl
  simp only [memRead, hs]
  rfl

@[simp] theorem State.release_busy (s : State) : s.release.busy = false := rfl

/-! ## The host's actions (R71, R92) -/

/-- What serving the host can do: nothing is asked or a waiting host sees BUSY = 1; the script goes on with the block's
registers unchanged; a CMD write is dropped or taken; or RST resets the block. -/
theorem serveHost_cases (s : State) :
    serveHost s = s ∨
      (∃ a rest log, s.host = a :: rest ∧ ∃ new, serveHost s = { s with host := new, readLog := log } ∧
        (log = s.readLog ∨ ∃ off, a = .read off ∧ log = memRead s off :: s.readLog)) ∨
      (∃ off v rest, s.host = .write off v :: rest ∧ alignedOffset off = 0 ∧
        (s.busy = true ∧ serveHost s = { s with host := rest, dropped := true } ∨
          s.busy = false ∧ serveHost s = State.takeCommand { s with host := rest } v)) ∨
      (∃ rest, s.host = .rst :: rest ∧ serveHost s = State.hardReset { s with host := rest }) := by
  unfold serveHost
  split
  · exact .inl rfl
  · rename_i off rest hh
    exact .inr (.inl ⟨_, rest, _, hh, rest, rfl, .inr ⟨off, rfl, rfl⟩⟩)
  · rename_i off v rest hh
    rcases memWrite_cases { s with host := rest } off v with ⟨_, he⟩ | ⟨ha, hb, he⟩ | ⟨ha, hb, he⟩
    · exact .inr (.inl ⟨_, rest, s.readLog, hh, rest, by rw [he], .inl rfl⟩)
    · exact .inr (.inr (.inl ⟨off, v, rest, hh, ha, .inl ⟨hb, he⟩⟩))
    · exact .inr (.inr (.inl ⟨off, v, rest, hh, ha, .inr ⟨hb, he⟩⟩))
  · rename_i rest hh
    split
    · exact .inl rfl
    · exact .inr (.inl ⟨_, rest, s.readLog, hh, rest, rfl, .inl rfl⟩)
  · rename_i rest hh
    exact .inr (.inl ⟨_, rest, s.readLog, hh, _, rfl, .inl rfl⟩)
  · rename_i rest hh
    exact .inr (.inr (.inr ⟨rest, hh, rfl⟩))

/-! ## A step (R70, R202) -/

theorem step_of_settled {s t : State} (h : nextEvent s = .settled t) : step s = .next t := by
  simp [step, h]

theorem step_of_execute {s t : State} {i : Instr} (h : nextEvent s = .execute i t) : step s = exec i t := by
  simp [step, h]

/-- A run whose first step answers `t` goes on from `t`. -/
theorem run_succ_of_next {n : Nat} {s t : State} (h : step s = .next t) : core.run (n + 1) s = core.run n t := by
  have h' : core.step s = .next t := h
  simp only [Host.Core.run, h']

theorem run_zero (s : State) : core.run 0 s = .next s := rfl

/-- What a step can do: serve the host (idle, or busy with one step less to go), end the initialisation, reject an illegal
word, or run a legal command to completion. -/
theorem step_cases {s t : State} (h : step s = .next t) :
    (∃ a, t = serveHost { s with activity := a } ∧
      (a = .idle ∧ s.activity = .idle ∨
        (∃ n, a = .initialising n ∧ s.activity = .initialising (n + 1)) ∨
          ∃ w d n, a = .running w d n ∧ s.activity = .running w d (n + 1))) ∨
      (s.activity = .initialising 0 ∧ t = s.release) ∨
        (∃ w d e, s.activity = .running w d 0 ∧ decode w = .error e ∧ t = s.release.raiseCmdError .illegalCommand) ∨
          ∃ w d i, s.activity = .running w d 0 ∧ decode w = .ok i ∧ exec i s.release = .next t := by
  have eta : ∀ a, s.activity = a → { s with activity := a } = s := by rintro _ rfl; rfl
  cases ha : s.activity with
  | idle =>
    rw [step_of_settled (t := serveHost s) (by simp [nextEvent, ha])] at h
    cases h
    exact .inl ⟨.idle, by rw [eta _ ha], .inl ⟨rfl, rfl⟩⟩
  | initialising n =>
    cases n with
    | zero =>
      rw [step_of_settled (t := s.release) (by simp [nextEvent, ha])] at h
      cases h
      exact .inr (.inl ⟨rfl, rfl⟩)
    | succ n =>
      rw [step_of_settled (t := serveHost { s with activity := .initialising n }) (by simp [nextEvent, ha])] at h
      cases h
      exact .inl ⟨_, rfl, .inr (.inl ⟨n, rfl, rfl⟩)⟩
  | running w d n =>
    cases n with
    | zero =>
      cases hd : decode w with
      | ok i =>
        rw [step_of_execute (t := s.release) (i := i) (by simp [nextEvent, ha, hd])] at h
        exact .inr (.inr (.inr ⟨w, d, i, rfl, hd, h⟩))
      | error e =>
        rw [step_of_settled (t := s.release.raiseCmdError .illegalCommand) (by simp [nextEvent, ha, hd])] at h
        cases h
        exact .inr (.inr (.inl ⟨w, d, e, rfl, hd, rfl⟩))
    | succ n =>
      rw [step_of_settled (t := serveHost { s with activity := .running w d n }) (by simp [nextEvent, ha])] at h
      cases h
      exact .inl ⟨_, rfl, .inr (.inr ⟨w, d, n, rfl, rfl⟩)⟩

end Sys2Proof.Machine
end

