-- ==== Sys2Proof/Laws/PerInstr.lean ====
section
/-! SUPPORT. A statement about every command, made per constructor (30_encoding.md R81, R84, R89): a command's word has a
well-formed set of fields. -/

namespace Sys2Proof.Laws.LegalWord

/-- The fields of the command's word pass the checks of R85. -/
def Statement (i : Instr) : Prop :=
  i.fields.wf = true

theorem clear : Statement .clear := rfl
theorem trainSym (s : Sym) : Statement (.trainSym s) := rfl
theorem build : Statement .build := rfl
theorem getCode (s : Sym) : Statement (.getCode s) := rfl
theorem encBegin : Statement .encBegin := rfl
theorem encSym (s : Sym) : Statement (.encSym s) := rfl
theorem encEnd : Statement .encEnd := rfl
theorem decBegin : Statement .decBegin := rfl
theorem decBit (t : Byte) : Statement (.decBit t) := rfl
theorem decEnd : Statement .decEnd := rfl

end Sys2Proof.Laws.LegalWord
end

