-- ==== Sys2Proof/Tests/Slice0.lean ====
section
/-! SUPPORT. Tests on small states, with results taken from spec/ (95_test_vectors.md and the rules' examples), the checks of
WellFormed on ill-formed terms, and for each obligation with hypotheses a state that meets them. -/

namespace Sys2Proof.Tests

open Sys2Proof.Machine

/-! ## Helpers -/

/-- A field of the next state. -/
def after {α : Type} (r : Result) (f : State → α) : Option α :=
  match r with
  | .next t => some (f t)
  | .fault _ => none
  | .refused _ => none

/-- The reset state after its initialisation. -/
def idle : State := { State.reset with activity := .idle }

/-- The counts of vector B3, training input "ab". -/
def trainedAb : State := { (idle.setFreq 0x61 1).setFreq 0x62 1 with total := 2 }

/-- The counts of vector B4, training input "abracadabra". -/
def trainedAbra : State :=
  { ((((idle.setFreq 0x61 5).setFreq 0x62 2).setFreq 0x63 1).setFreq 0x64 1).setFreq 0x72 2 with total := 11 }

/-- The model of vector B3 in READY, written out from its row: leaves 'a' 1 and 'b' 1, node 2 = (0, 1, 2), ROOT 2. -/
def modelAb : State :=
  { trainedAb with
    phase := .ready
    nsym := 2
    root := 2
    ct := (CodeTable.empty.setCode 0x61 1 0).setCode 0x62 1 1
    tb := { ((TreeBuilder.reset.setNode 0 ⟨true, 0x61, 1, 0, 0⟩).setNode 1 ⟨true, 0x62, 1, 0, 0⟩).setNode 2
        ⟨false, 0, 2, 0, 1⟩ with next := 3 } }

/-- The code table entries of 'c' "100" and 'z' (none) of vector B4. -/
def codeC : State := { idle with phase := .enc, ct := CodeTable.empty.setCode 0x63 3 1 }

/-- The model of vector B2, training input "aaaa". -/
def modelA : State :=
  { idle with
    phase := .ready
    nsym := 1
    total := 4
    freq := idle.freq.set 0x61 4
    ct := CodeTable.empty.setCode 0x61 1 0
    tb := { TreeBuilder.reset.setNode 0 ⟨true, 0x61, 4, 0, 0⟩ with next := 1 } }

/-! ## WellFormed: an ill-formed term for each check -/

theorem test_wf_refuses_reserved_opcode_zero : CmdFields.wf ⟨0x00, 0, 0⟩ = false := by decide
theorem test_wf_refuses_reserved_opcode_above : CmdFields.wf ⟨0x0B, 0, 0⟩ = false := by decide
theorem test_wf_refuses_reserved_field : CmdFields.wf ⟨0x02, 1, 0x61⟩ = false := by decide
theorem test_wf_refuses_operand : CmdFields.wf ⟨0x01, 0, 1⟩ = false := by decide
theorem test_wf_accepts_symbol : CmdFields.wf ⟨0x02, 0, 0xFF⟩ = true := by decide
theorem test_wf_refuses_large_hex : AsmOperand.wf (.hex 256) = false := by decide
theorem test_wf_refuses_large_decimal : AsmOperand.wf (.dec 256) = false := by decide
theorem test_wf_refuses_wide_character : AsmOperand.wf (.char 'Ā') = false := by decide
theorem test_wf_refuses_missing_operand : AsmLine.wf ⟨.trainSym, none⟩ = false := by decide
theorem test_wf_refuses_superfluous_operand : AsmLine.wf ⟨.build, some (.dec 0)⟩ = false := by decide
theorem test_wf_refuses_script_without_wait : scriptWaits false [.write 0 0x03000000, .write 0 0x05000000] = false := by
  decide
theorem test_wf_refuses_script_after_reset : scriptWaits false [.rst, .write 3 0x01000000] = false := by decide
theorem test_wf_accepts_script_with_wait : scriptWaits true (.wait :: issue .build) = true := by decide

/-! ## Decoding: words written out from the spec's encodings (R83; 95_test_vectors.md 2.1) -/

theorem test_decode_clear : decode 0x01000000 = .ok .clear := by rfl
theorem test_decode_trainSym : decode 0x02000061 = .ok (.trainSym 0x61) := by rfl
theorem test_decode_build : decode 0x03000000 = .ok .build := by rfl
theorem test_decode_getCode : decode 0x040000FF = .ok (.getCode 0xFF) := by rfl
theorem test_decode_encBegin : decode 0x05000000 = .ok .encBegin := by rfl
theorem test_decode_encSym : decode 0x06000063 = .ok (.encSym 0x63) := by rfl
theorem test_decode_encEnd : decode 0x07000000 = .ok .encEnd := by rfl
theorem test_decode_decBegin : decode 0x08000000 = .ok .decBegin := by rfl
theorem test_decode_decBit : decode 0x09000032 = .ok (.decBit 0x32) := by rfl
theorem test_decode_decEnd : decode 0x0A000000 = .ok .decEnd := by rfl
theorem test_decode_illegal_words :
    decode 0x00000000 = .error .reservedOpcode ∧ decode 0x0B000000 = .error .reservedOpcode ∧
      decode 0xFF0000FF = .error .reservedOpcode ∧ decode 0x80000000 = .error .reservedOpcode ∧
      decode 0x02010061 = .error .reservedFieldNotZero ∧ decode 0x01000001 = .error .operandNotZero :=
  ⟨rfl, rfl, rfl, rfl, rfl, rfl⟩
theorem test_decode_table_word : decodeTableWord 32 0x06000063 = some (.encSym 0x63) := by decide
theorem test_encode_words : encode (.trainSym 0x61) = 0x02000061 ∧ encode .build = 0x03000000 ∧
    encode (.decBit 0x31) = 0x09000031 := by decide
theorem test_assemble_character : assemble ⟨.trainSym, some (.char 'a')⟩ = some (.trainSym 0x61) := by decide

/-! ## CLEAR and TRAIN_SYM (vectors T1, T4, T6) -/

/-- T6: CLEAR in ENC with TXN_ERR 1 gives STATUS 0. -/
theorem test_clear_aborts_transaction :
    after (exec .clear { modelAb with phase := .enc, txnErr := .unknownSymbol })
      (fun t => (memRead t 0x004, t.nsym, t.total, t.outLen)) = some (0, 0, 0, 0) := by decide
/-- T1, last command: FREQ['b'] 1, TOTAL 4, STATUS 0. -/
theorem test_trainSym_counts :
    after (exec (.trainSym 0x62) { idle.setFreq 0x61 3 with total := 3 })
      (fun t => (t.freqOf 0x61, t.freqOf 0x62, t.total, memRead t 0x004)) = some (3, 1, 4, 0) := by decide
/-- T4: TRAIN_SYM at TOTAL = 0xFFFF_FFFF gives STATUS 0x300 and counts nothing. -/
theorem test_trainSym_overflow :
    after (exec (.trainSym 0x72) { idle.setFreq 0x71 0xFFFFFFFF with total := 0xFFFFFFFF })
      (fun t => (memRead t 0x004, t.freqOf 0x72, t.total)) = some (0x300, 0, 0xFFFFFFFF) := by decide

/-! ## BUILD (vectors B3, B4; R139) -/

theorem test_build_ab_tree :
    after (exec .build trainedAb) (fun t => (t.nsym, t.root, t.tb.nodeAt 2, memRead t 0x004)) =
      some (2, 2, ⟨false, 0, 2, 0, 1⟩, 2) := by decide +kernel
theorem test_build_abracadabra_codes :
    after (exec .build trainedAbra)
      (fun t => [0x61, 0x62, 0x63, 0x64, 0x72].map fun x => (t.ct.lenOf x, (t.ct.bitsOf x).setWidth 8)) =
      some [(1, 0), (3, 3), (3, 1), (3, 5), (3, 7)] := by decide +kernel

/-! ## GET_CODE and the encoder (vectors G1, E13, E14; R153's example) -/

theorem test_getCode_reads_table :
    after (exec (.getCode 0x62) modelAb) (fun t => (t.resLen, memRead t 0x020, memRead t 0x004)) = some (1, 1, 2) := by
  decide
theorem test_encBegin_status : after (exec .encBegin { modelAb with outLen := 23 }) (fun t => (t.outLen, memRead t 0x004)) =
    some (0, 4) := by decide
theorem test_encSym_shifts_out :
    after (exec (.encSym 0x63) codeC)
      (fun t => (t.outbuf.read 0, t.outbuf.read 1, t.outbuf.read 2, t.outbuf.read 3, t.workLen)) =
      some (0x31, 0x30, 0x30, 0, 3) := by decide
/-- As E12 and E13: a codeword of 3 bits fits 65533 + 3 bytes and not 65534 + 3. -/
theorem test_encSym_exact_fill :
    after (exec (.encSym 0x63) { codeC with workLen := 65533 }) (fun t => (t.txnErr, t.workLen)) = some (.none, 65536) ∧
      after (exec (.encSym 0x63) { codeC with workLen := 65534 }) (fun t => (t.txnErr, t.workLen)) =
        some (.outputOverflow, 65534) := by decide
theorem test_encEnd_failure :
    after (exec .encEnd { modelAb with phase := .enc, workLen := 2, txnErr := .unknownSymbol })
      (fun t => (memRead t 0x004, t.outLen)) = some (0x12, 0) := by decide
theorem test_encEnd_success :
    after (exec .encEnd { modelAb with phase := .enc, workLen := 4 }) (fun t => (memRead t 0x004, t.outLen)) =
      some (0x0A, 4) := by decide

/-! ## The decoder (R172's example; vectors D5, D12, D15) -/

theorem test_decBegin_cursor : after (exec .decBegin modelAb) (fun t => (t.cursor, memRead t 0x004)) = some (2, 6) := by
  decide
theorem test_decBit_emits :
    after (exec (.decBit 0x31) { modelAb with phase := .dec, cursor := 2 })
      (fun t => (t.outbuf.read 0, t.workLen, t.cursor)) = some (0x62, 1, 2) := by decide +kernel
theorem test_decBit_priority :
    after (exec (.decBit 0x78) { idle with phase := .dec }) (fun t => t.txnErr) = some .emptyModel ∧
      after (exec (.decBit 0x31) { modelA with phase := .dec }) (fun t => t.txnErr) = some .invalidBitToken := by decide
theorem test_decEnd_truncated :
    after (exec .decEnd { modelAb with phase := .dec, cursor := 1, workLen := 1 }) (fun t => (memRead t 0x004, t.outLen)) =
      some (0x32, 0) := by decide
theorem test_decEnd_success :
    after (exec .decEnd { modelAb with phase := .dec, cursor := 2, workLen := 1 }) (fun t => (memRead t 0x004, t.outLen)) =
      some (0x0A, 1) := by decide

/-! ## The bus (95_test_vectors.md 2.2, X1, X2, X3) -/

theorem test_read_ignores_low_bits : memRead modelAb 0x006 = 2 := by decide
theorem test_out_window_word :
    memRead { modelAb with outLen := 4, outbuf := [(0, 0x30), (1, 0x31), (2, 0x31), (3, 0x30)] } 0x10000 = 0x30313130 ∧
      memRead { modelAb with outLen := 3, outbuf := [(0, 0x30), (1, 0x31), (2, 0x31), (3, 0x30)] } 0x10000 = 0x00313130 := by
  decide
theorem test_begin_inside_transaction :
    after (exec .decBegin { modelAb with phase := .enc, txnErr := .unknownSymbol }) (fun t => memRead t 0x004) =
      some 0x214 := by decide
theorem test_illegal_word_in_transaction :
    after (step (State.withFetchWord { modelAb with phase := .dec } 32 0)) (fun t => memRead t 0x004) = some 0x106 := by
  decide
theorem test_dropped_write :
    after (step { idle with activity := .running 0x03000000 false 1, host := [.write 0 0x01000000] })
      (fun t => (t.dropped, t.activity)) = some (true, .running 0x03000000 false 0) := by decide
/-- R236, X3: after the dropped write STATUS still reads DROPPED = 0 while BUSY = 1, and 1 after the completion. -/
theorem test_dropped_is_shown_at_completion :
    memRead { modelAb with dropped := true, activity := .running 0x03000000 false 0 } 0x004 = 3 ∧
      memRead { modelAb with dropped := true, activity := .running 0x03000000 true 0 } 0x004 = 0x1003 ∧
      after (step { modelAb with dropped := true, activity := .running 0x04000061 false 0 }) (fun t => memRead t 0x004) =
        some 0x1002 := by decide
/-- R232: a write dropped in the initialisation is seen when it has ended. -/
theorem test_dropped_in_initialisation :
    after (step { idle with activity := .initialising 1, host := [.write 0 0x01000000] }) (fun t => memRead t 0x004) = some 1 ∧
      after (step { idle with activity := .initialising 0, dropped := true }) (fun t => memRead t 0x004) = some 0x1000 := by
  decide
theorem test_first_command_after_reset :
    after (step (State.reset.withFetchWord 32 0x02000061)) (fun t => (t.freqOf 0x61, t.total, memRead t 0x004)) =
      some (1, 1, 0) := by decide

/-! ## The hypotheses of the obligations can be met -/

theorem witness_IllegalWordsAreRejected :
    ({ idle with activity := .running 0x01000001 false 0 } : State).activity = .running 0x01000001 false 0 ∧
      (∃ e, decode 0x01000001 = .error e) ∧ (∃ e, decode 0x0B000000 = .error e) ∧
      (∃ e, decode 0x00000000 = .error e) ∧ ∃ e, decode 0x02000100 = .error e :=
  ⟨rfl, ⟨_, rfl⟩, ⟨_, rfl⟩, ⟨_, rfl⟩, ⟨_, rfl⟩⟩

theorem witness_ListingOperandsNameOneByte :
    255 < 256 ∧ assemble ⟨.clear, none⟩ = some .clear ∧ Mnemonic.decBit.takesOperand = true ∧ 'a'.toNat < 128 ∧ 128 ≤ 'é'.toNat ∧ Mnemonic.decEnd.takesOperand = false ∧
      256 ≤ 256 := by decide

theorem witness_PlatformWindowStandsAtBase : Config.base + 0x20000 ≤ Config.base + 0x20000 := Nat.le_refl _

theorem witness_OnlyCmdWritesHaveAnEffect :
    (4 : Offset) ≤ 4 ∧ (3 : Offset) < 4 ∧ (0x18 : Offset) ≤ 0x18 ∧ (0x1F : Offset) ≤ 0x1F ∧ (0x40 : Offset) ≤ 0x40 ∧
      (0xFFFF : Offset) ≤ 0xFFFF := by decide

theorem witness_ResultRegistersReadTheirFields : 7 < 8 ∧ 31 < 32 := by decide

theorem witness_OutWindowPacksCommittedBytes :
    16383 < 16384 ∧ 3 < 4 ∧ idle.resultWf ∧ idle.resOk = false ∧ (0x10000 : Offset) ≤ 0x1FFFF :=
  ⟨by decide, by decide, ⟨fun _ => rfl, by decide⟩, rfl, by decide⟩

theorem witness_ReadsHaveNoSideEffect :
    ({ idle with host := [.read 4] } : State).activity = .idle ∧ ({ idle with host := [.read 4] } : State).host = [.read 4] :=
  ⟨rfl, rfl⟩

theorem witness_CompletingStepRunsDecodedCommand :
    ({ idle with activity := .running 0x02000061 false 0 } : State).activity = .running 0x02000061 false 0 ∧
      decode 0x02000061 = .ok (.trainSym 0x61) :=
  ⟨rfl, rfl⟩

theorem witness_CmdWriteIsTakenOrDropped :
    (3 : Offset) < 4 ∧ ({ idle with host := [.write 3 0] } : State).host = [.write 3 0] ∧
      ({ idle with host := [.write 3 0] } : State).activity = .idle ∧
      ({ idle with host := [.write 3 0], activity := .running 0x03000000 false 1 } : State).activity = .running 0x03000000 false (0 + 1) ∧
      ({ idle with host := [.write 3 0], activity := .initialising 1 } : State).activity = .initialising (0 + 1) :=
  ⟨by decide, rfl, rfl, rfl, rfl⟩

theorem witness_OnlyDroppedChangesWhileRunning :
    (∃ w old, Activity.running 0x03000000 false = .running w old) ∧
      ({ idle with host := [.read 4], activity := .running 0x03000000 false 1 } : State).activity =
        .running 0x03000000 false (0 + 1) ∧
      ({ idle with host := [.write 0 0], activity := .initialising 1 } : State).activity = .initialising (0 + 1) ∧
      HostAction.read 4 ≠ .rst ∧ HostAction.write 0 0 ≠ .rst ∧ ∀ off, HostAction.write 0 0 ≠ .read off :=
  ⟨⟨_, _, rfl⟩, rfl, rfl, by decide, by decide, nofun⟩

theorem witness_BusyBlockComesToCompletion :
    HostAction.rst ∉ ({ idle with host := [.wait], activity := .running 0x03000000 false 2 } : State).host ∧
      ({ idle with host := [.wait], activity := .running 0x03000000 false 2 } : State).activity = .running 0x03000000 false 2 ∧
      ({ idle with host := [.wait], activity := .initialising 0 } : State).activity = .initialising 0 :=
  ⟨by decide, rfl, rfl⟩

theorem witness_ResetAbandonsEverything :
    ({ modelAb with host := [.rst] } : State).host = [.rst] ∧ ({ modelAb with host := [.rst] } : State).activity = .idle ∧
      ({ modelAb with activity := .running 0x03000000 false 1 } : State).activity = .running 0x03000000 false (0 + 1) ∧
      ({ modelAb with activity := .initialising 1 } : State).activity = .initialising (0 + 1) :=
  ⟨rfl, rfl, rfl, rfl⟩

theorem witness_BlockNeverStops : idle.activity = .idle := rfl

theorem witness_WaitingHostRunsCommandsInOrder :
    ({ idle with host := issue .clear ++ issue .build } : State).host = [Instr.clear, Instr.build].flatMap issue ++ [] :=
  rfl

theorem witness_WaitingHostNeverDropsWrite :
    ({ idle with host := issue .clear ++ issue .build } : State).dropped = false ∧
      scriptWaits (State.busy { idle with host := issue .clear ++ issue .build }) (issue .clear ++ issue .build) = true ∧
      ∃ t, core.run 1 { idle with host := issue .clear ++ issue .build } = .next t :=
  ⟨rfl, by decide, _, rfl⟩

theorem witness_PhaseChangesOnlyAsListed :
    phaseTable .encBegin modelAb.phase = some .enc ∧ phaseTable .build modelAb.phase = none ∧
      step { modelAb with activity := .running 0x05000000 false 0 } =
        .next { modelAb.beginTxn with phase := .enc } ∧ Phase.enc ≠ modelAb.phase :=
  ⟨rfl, rfl, rfl, by decide⟩

theorem witness_FirstDataErrorWins :
    ({ modelAb with phase := .enc, txnErr := .unknownSymbol } : State).txnErr ≠ .none ∧
      ∃ t, step { modelAb with phase := .enc, txnErr := .unknownSymbol } = .next t :=
  ⟨by decide, _, rfl⟩

theorem witness_DroppedIsSticky :
    (∃ t, step { idle with dropped := true, activity := .running 0x01000000 true 0 } = .next t ∧ t.dropped = false) ∧
      ∃ t, step { idle with activity := .running 0x01000000 false 1, host := [.write 0 0] } = .next t ∧ t.dropped = true :=
  ⟨⟨_, rfl, rfl⟩, ⟨_, rfl, rfl⟩⟩

theorem witness_BuiltModelIsFrozen :
    modelAb.phase ≠ .train ∧ Instr.encBegin ≠ .clear ∧ ∃ t, exec .encBegin modelAb = .next t :=
  ⟨by decide, by decide, _, rfl⟩

theorem witness_ClearDiscardsModelAndResults : modelAb.activity = .idle := rfl

/-- The counts of a state with the given two symbols agree with TOTAL: R106's premise for the witnesses below. -/
theorem trainedAb_countsAgree : trainedAb.countsAgree := by
  unfold State.countsAgree; decide +kernel

theorem witness_TrainSymCountsOneOccurrence :
    trainedAb.phase = .train ∧ trainedAb.total ≠ 0xFFFFFFFF ∧ trainedAb.countsAgree ∧
      ({ idle with total := 0xFFFFFFFF } : State).total = 0xFFFFFFFF ∧ modelAb.phase ≠ .train :=
  ⟨rfl, by decide, trainedAb_countsAgree, rfl, by decide⟩

theorem witness_TrainSymsCommute : ({ idle with total := 0xFFFFFFFD } : State).total.toNat + 2 ≤ 0xFFFFFFFF := by decide

/-- BUILD from the counts of "ab" answers a next state with two symbols: the premises of the BUILD obligations. -/
theorem witness_build :
    trainedAb.phase = .train ∧ trainedAb.countsAgree ∧ exec .build trainedAb = .next trainedAb.accepted.buildModel ∧
      (2 : BitVec 9) ≤ trainedAb.accepted.buildModel.nsym :=
  ⟨rfl, trainedAb_countsAgree, rfl, by decide +kernel⟩

/-- The boundary clauses of the code table obligation: an untrained and a trained symbol, and a single-symbol model. -/
theorem witness_BuildGivesPathsAsCodewords :
    trainedAb.freqOf 0x63 = 0 ∧ trainedAb.freqOf 0x62 ≠ 0 ∧ (idle.setFreq 0x61 4).phase = .train ∧
      after (exec .build (idle.setFreq 0x61 4)) (fun t => t.nsym) = some 1 := by decide +kernel

theorem witness_BuildMergesTheTwoLeastNodes :
    after (exec .build trainedAb) (fun t => decide (t.nsym.toNat ≤ (2 : NodeIdx).toNat ∧
      (2 : NodeIdx).toNat < 2 * t.nsym.toNat - 1)) = some true := by decide +kernel

/-- A prefix-free code over the two symbols of "ab". -/
theorem trainedAb_code :
    prefixFree (fun x => trainedAb.freqOf x ≠ 0) (fun x => if x = 0x61 then [true] else [false]) := by
  intro x y hx hy hxy
  have h : ∀ z : Sym, trainedAb.freqOf z ≠ 0 → z = 0x61 ∨ z = 0x62 := by
    intro z hz
    by_cases h1 : z = 0x61
    · exact .inl h1
    · by_cases h2 : z = 0x62
      · exact .inr h2
      · refine absurd ?_ hz
        show State.freqOf ((idle.setFreq 0x61 1).setFreq 0x62 1) z = 0
        rw [State.freqOf_setFreq_of_ne _ h2, State.freqOf_setFreq_of_ne _ h1]
        simp [State.freqOf, idle, State.reset]
  rcases h x hx with rfl | rfl <;> rcases h y hy with rfl | rfl <;> first | exact absurd rfl hxy | decide

/-- The premises of the optimality obligation together. -/
theorem witness_BuiltCodeIsOptimal :
    trainedAb.phase = .train ∧ trainedAb.countsAgree ∧ (∃ t, exec .build trainedAb = .next t ∧ 2 ≤ t.nsym) ∧
      prefixFree (fun x => trainedAb.freqOf x ≠ 0) (fun x => if x = 0x61 then [true] else [false]) :=
  ⟨rfl, trainedAb_countsAgree, ⟨_, rfl, witness_build.2.2.2⟩, trainedAb_code⟩

theorem witness_BuildIsDeterminedByTheCounts :
    trainedAb.freq = ({ trainedAb with tb := modelAb.tb } : State).freq ∧
      ∃ t, exec .build { trainedAb with tb := modelAb.tb } = .next t :=
  ⟨rfl, _, rfl⟩

theorem witness_HeapPushAddsOneEntry :
    ({ modelAb.tb with hsize := 1 } : TreeBuilder).hsize.toNat < 256 ∧
      ({ modelAb.tb with hsize := 1 } : TreeBuilder).heapOrdered :=
  ⟨by decide, fun i h0 h1 => by simp at h1; omega⟩

theorem witness_HeapPopRemovesLeastEntry :
    1 ≤ ({ modelAb.tb with heap := modelAb.tb.heap.set 1 1, hsize := 2 } : TreeBuilder).hsize.toNat ∧
      ({ modelAb.tb with heap := modelAb.tb.heap.set 1 1, hsize := 2 } : TreeBuilder).hsize.toNat ≤ 256 ∧
      ({ modelAb.tb with heap := modelAb.tb.heap.set 1 1, hsize := 2 } : TreeBuilder).heapOrdered := by
  refine ⟨by decide, by decide, fun i h0 h1 => ?_⟩
  have hi : i = 1 := by simp at h1; omega
  subst hi
  decide +kernel

theorem witness_ready_and_not : modelAb.phase = .ready ∧ idle.phase ≠ .ready := ⟨rfl, by decide⟩

theorem witness_EncSymAppendsTheCodeword :
    codeC.phase = .enc ∧ codeC.txnErr = .none ∧ codeC.ct.lenOf 0x63 ≠ 0 ∧ codeC.ct.lenOf 0x7A = 0 ∧
      codeC.outbuf.wf = true ∧
      ({ codeC with workLen := 65533 } : State).workLen.toNat + (codeC.ct.lenOf 0x63).toNat ≤ Config.outCap ∧
      Config.outCap < ({ codeC with workLen := 65534 } : State).workLen.toNat + (codeC.ct.lenOf 0x63).toNat ∧
      ({ codeC with txnErr := .unknownSymbol } : State).txnErr ≠ .none ∧ modelAb.phase ≠ .enc := by decide

theorem witness_EncEndCommitsResultOrFailure :
    ({ modelAb with phase := .enc } : State).phase = .enc ∧ modelAb.txnErr = .none ∧
      ({ modelAb with phase := .enc, txnErr := .outputOverflow } : State).txnErr ≠ .none ∧ modelAb.phase ≠ .enc :=
  ⟨rfl, rfl, by decide, by decide⟩

theorem witness_EncodeIsAllOrNothing : modelAb.phase = .ready ∧ modelAb.outbuf.wf = true := ⟨rfl, rfl⟩

theorem witness_EncodeDependsOnTheCodeTableOnly :
    modelAb.ct = ({ modelAb with tb := TreeBuilder.reset, workLen := 5 } : State).ct ∧
      (∃ t, execAll (encodeTxn [0x61]) modelAb = .next t) ∧
      ∃ t, execAll (encodeTxn [0x61]) { modelAb with tb := TreeBuilder.reset, workLen := 5 } = .next t :=
  ⟨rfl, ⟨_, rfl⟩, ⟨_, rfl⟩⟩

theorem witness_DecBitChecksInOrder :
    ({ modelAb with phase := .dec } : State).phase = .dec ∧ modelAb.txnErr = .none ∧ modelAb.nsym ≠ 0 ∧ idle.nsym = 0 ∧
      (0x32 : Byte) ≠ 0x30 ∧ (0x32 : Byte) ≠ 0x31 ∧ (0x31 : Byte) = (if true then 0x31 else 0x30) ∧
      ({ modelAb with txnErr := .emptyModel } : State).txnErr ≠ .none ∧ modelAb.phase ≠ .dec := by decide

theorem witness_SingleSymbolModelDecodesZeros :
    ({ modelA with phase := .dec } : State).phase = .dec ∧ modelA.txnErr = .none ∧ modelA.nsym = 1 ∧
      ({ modelA with workLen := 65536 } : State).workLen.toNat = Config.outCap ∧
      ({ modelA with workLen := 65535 } : State).workLen.toNat < Config.outCap ∧ modelA.outbuf.wf = true := by decide

theorem witness_TreeStepMovesOrEmits :
    ({ modelAb with phase := .dec, cursor := 2 } : State).phase = .dec ∧ modelAb.txnErr = .none ∧ (2 : BitVec 9) ≤ modelAb.nsym ∧
      (modelAb.tb.nodeAt 1).isLeaf = true ∧ (modelAb.tb.nodeAt 2).right = 1 ∧ (modelAb.tb.nodeAt 2).isLeaf = false ∧
      ({ modelAb with workLen := 65536 } : State).workLen.toNat = Config.outCap ∧
      ({ modelAb with workLen := 65535 } : State).workLen.toNat < Config.outCap ∧ modelAb.outbuf.wf = true := by decide +kernel

/-- A state in which a token leads to an internal node: CURSOR 3 of a tree whose node 3 has node 2 on its left. -/
theorem witness_TreeStepMoves :
    let s : State := { modelAb with phase := .dec, cursor := 3, nsym := 3, tb := modelAb.tb.setNode 3 ⟨false, 0, 3, 2, 0⟩ }
    s.txnErr = .none ∧ (2 : BitVec 9) ≤ s.nsym ∧ (s.tb.nodeAt s.cursor).left = 2 ∧ (s.tb.nodeAt 2).isLeaf = false := by
  decide +kernel

theorem witness_DecEndChecksAndCommits :
    ({ modelAb with phase := .dec, cursor := 1 } : State).phase = .dec ∧ (2 : BitVec 9) ≤ modelAb.nsym ∧
      ({ modelAb with cursor := 1 } : State).cursor ≠ modelAb.root ∧ modelA.nsym < 2 ∧
      ({ modelAb with cursor := 2 } : State).cursor = modelAb.root := by decide

/-- The model of "ab" is a well-formed tree (R41). -/
theorem modelAb_treeWf : modelAb.TreeWf := by
  have hn : modelAb.nsym.toNat = 2 := by decide
  have small : ∀ k : NodeIdx, k.toNat < 2 → k = 0 ∨ k = 1 := by
    intro k hk
    have : k.toNat = 0 ∨ k.toNat = 1 := by omega
    exact this.imp (fun h => BitVec.eq_of_toNat_eq h) (fun h => BitVec.eq_of_toNat_eq h)
  have two : ∀ k : NodeIdx, 2 ≤ k.toNat → k.toNat < 3 → k = 2 := fun k h1 h2 => by
    have : k.toNat = 2 := by omega
    exact BitVec.eq_of_toNat_eq this
  refine
    { nsym_le := by decide
      leaf := fun k hk => ?_
      leaf_order := fun j k hj hk => ?_
      leaf_of_present := fun x hx => ?_
      internal := fun k h1 h2 => ?_
      one_parent := fun k hk => ?_
      root := by decide
      next := by decide }
  · rw [hn] at hk
    rcases small k hk with rfl | rfl <;> decide +kernel
  · rw [hn] at hk
    have hj' : j.toNat < k.toNat := hj
    rcases small k hk with rfl | rfl
    · exact absurd hj' (by simp)
    · have : j = 0 := BitVec.eq_of_toNat_eq (by simp at hj' ⊢; omega)
      subst this
      decide +kernel
  · by_cases h1 : x = 0x61
    · subst h1; exact ⟨0, by decide, by decide +kernel⟩
    · by_cases h2 : x = 0x62
      · subst h2; exact ⟨1, by decide, by decide +kernel⟩
      · exfalso
        have h0 : State.freqOf ((idle.setFreq 0x61 1).setFreq 0x62 1) x = 0 := by
          rw [State.freqOf_setFreq_of_ne _ h2, State.freqOf_setFreq_of_ne _ h1]
          simp [State.freqOf, idle, State.reset]
        have hx' : 0 < State.freqOf ((idle.setFreq 0x61 1).setFreq 0x62 1) x := hx
        rw [h0] at hx'
        exact absurd hx' (by decide)
  · rw [hn] at h1 h2
    rw [two k h1 h2]
    decide +kernel
  · rw [hn] at hk
    rcases small k (by omega) with rfl | rfl
    · refine ⟨(2, false), ⟨by decide, by decide, by decide +kernel⟩, ?_⟩
      rintro ⟨p, b⟩ ⟨h1, h2, h3⟩
      have hp := two p (by simpa [hn] using h1) (by simpa [hn] using h2)
      subst hp
      cases b
      · rfl
      · exact absurd h3 (by decide +kernel)
    · refine ⟨(2, true), ⟨by decide, by decide, by decide +kernel⟩, ?_⟩
      rintro ⟨p, b⟩ ⟨h1, h2, h3⟩
      have hp := two p (by simpa [hn] using h1) (by simpa [hn] using h2)
      subst hp
      cases b
      · exact absurd h3 (by decide +kernel)
      · rfl

/-- The symbols of "ab" and the others: what FREQ and the code table hold for each. -/
theorem modelAb_entries (x : Sym) :
    x = 0x61 ∨ x = 0x62 ∨ (modelAb.freqOf x = 0 ∧ modelAb.ct.lenOf x = 0) := by
  by_cases h1 : x = 0x61
  · exact .inl h1
  · by_cases h2 : x = 0x62
    · exact .inr (.inl h2)
    · refine .inr (.inr ⟨?_, ?_⟩)
      · show State.freqOf ((idle.setFreq 0x61 1).setFreq 0x62 1) x = 0
        rw [State.freqOf_setFreq_of_ne _ h2, State.freqOf_setFreq_of_ne _ h1]
        simp [State.freqOf, idle, State.reset]
      · show ((CodeTable.empty.setCode 0x61 1 0).setCode 0x62 1 1).lenOf x = 0
        rw [CodeTable.lenOf_setCode_of_ne _ h2, CodeTable.lenOf_setCode_of_ne _ h1]
        simp

/-- The code table of "ab" is that of its tree (R130). -/
theorem modelAb_codesWf : modelAb.CodesWf := by
  refine { present := fun x => ?_, single := fun h => absurd h (by decide), path := fun _ x hx => ?_ }
  · rcases modelAb_entries x with rfl | rfl | ⟨h1, h2⟩
    · decide
    · decide
    · simp [h1, h2]
  · rcases modelAb_entries x with rfl | rfl | ⟨h1, _⟩
    · exact ⟨0, by decide, by decide +kernel, by decide +kernel⟩
    · exact ⟨1, by decide, by decide +kernel, by decide +kernel⟩
    · exact absurd h1 hx

theorem witness_DecodeInvertsEncode :
    modelAb.phase = .ready ∧ modelAb.TreeWf ∧ modelAb.CodesWf ∧ modelAb.outbuf.wf = true ∧
      ∃ t, execAll (encodeTxn [0x61, 0x62]) modelAb = .next t ∧ t.resOk = true ∧ t.phase = .ready ∧ t.tb = modelAb.tb ∧
        t.nsym = modelAb.nsym ∧ t.root = modelAb.root ∧ t.outbuf.wf = true :=
  ⟨rfl, modelAb_treeWf, modelAb_codesWf, rfl, _, rfl, by decide, by decide, rfl, rfl, rfl, by decide⟩

theorem witness_CursorAtRootMeansWholeCodewords :
    modelAb.phase = .ready ∧ modelAb.TreeWf ∧ modelAb.CodesWf ∧ (2 : BitVec 9) ≤ modelAb.nsym ∧
      ∃ t, execAll (.decBegin :: ([true].map bitToken).map .decBit) modelAb = .next t ∧ t.txnErr = .none :=
  ⟨rfl, modelAb_treeWf, modelAb_codesWf, by decide, _, rfl, by decide +kernel⟩

theorem witness_StepKeepsTotalTheSumOfCounts : trainedAb.countsAgree ∧ ∃ t, step trainedAb = .next t :=
  ⟨trainedAb_countsAgree, _, rfl⟩

theorem witness_StepKeepsTheBuffer : modelAb.bufferWf ∧ ∃ t, step modelAb = .next t :=
  ⟨⟨by decide, by decide, rfl, rfl⟩, _, rfl⟩

theorem witness_StepKeepsResultVisibility : trainedAb.resultWf ∧ trainedAb.trainWf ∧ ∃ t, step trainedAb = .next t :=
  ⟨⟨fun _ => rfl, by decide⟩, fun _ => ⟨rfl, rfl, rfl, rfl, rfl, rfl, rfl, rfl, rfl, rfl, rfl⟩, _, rfl⟩

theorem witness_StepKeepsCodeBitsAndIdleHeap : trainedAb.codeBitsWf ∧ trainedAb.heapIdle ∧ ∃ t, step trainedAb = .next t := by
  refine ⟨⟨fun x i _ => ?_, fun i _ => ?_⟩, rfl, _, rfl⟩
  · show (CodeTable.empty.bitsOf x).getLsbD i = false
    simp
  · show (0 : BitVec 256).getLsbD i = false
    simp

theorem witness_StepKeepsTheTree : modelAb.countsAgree ∧ modelAb.treeInv ∧ ∃ t, step modelAb = .next t :=
  ⟨trainedAb_countsAgree, fun _ => modelAb_treeWf, _, rfl⟩

theorem witness_StepKeepsTheCodes : modelAb.codesInv ∧ ∃ t, step modelAb = .next t :=
  ⟨fun _ => modelAb_codesWf, _, rfl⟩

theorem witness_StepKeepsTheCursorInternal :
    modelAb.treeInv ∧ modelAb.cursorInv ∧ ∃ t, step { modelAb with activity := .running 0x08000000 false 0 } = .next t :=
  ⟨fun _ => modelAb_treeWf, fun h => absurd h (by decide), _, rfl⟩

/-- The model of "ab" over another OUTBUF. -/
def modelAb' : State := { modelAb with outbuf := [(9, 1)] }

theorem modelAb'_treeWf : modelAb'.TreeWf :=
  let h := modelAb_treeWf
  ⟨h.nsym_le, h.leaf, h.leaf_order, h.leaf_of_present, h.internal, h.one_parent, h.root, h.next⟩

theorem witness_StepKeepsTheCodePrefixFree : modelAb.prefixFreeInv ∧ ∃ t, step modelAb = .next t := by
  refine ⟨fun _ x y hx hy hxy => ?_, _, rfl⟩
  rcases modelAb_entries x with rfl | rfl | ⟨h, _⟩ <;> rcases modelAb_entries y with rfl | rfl | ⟨h', _⟩ <;>
    first | exact absurd rfl hxy | exact absurd h hx | exact absurd h' hy | decide +kernel

theorem witness_UnspecifiedElementsAreNeverObserved :
    modelAb.treeInv ∧ modelAb.cursorInv ∧ modelAb'.treeInv ∧ modelAb'.cursorInv ∧ modelAb.outbuf.wf = true ∧
      modelAb'.outbuf.wf = true ∧ modelAb.agrees modelAb' ∧ (∃ t, step modelAb = .next t) ∧ ∃ t, step modelAb' = .next t := by
  refine ⟨fun _ => modelAb_treeWf, fun h => absurd h (by decide), fun _ => modelAb'_treeWf, fun h => absurd h (by decide), rfl,
    rfl, ⟨rfl, rfl, rfl, fun i hi => ?_, fun _ k _ => ?_⟩, ⟨_, rfl⟩, _, rfl⟩
  · exact absurd hi (by simp [modelAb, trainedAb, idle, State.reset, State.setFreq])
  · refine ⟨rfl, rfl, ?_⟩
    split <;> first | rfl | exact ⟨rfl, rfl⟩

end Sys2Proof.Tests
end

/-! ## A command's effect, and a step over effects (R202)

`effect` names what an accepted command does, so that a claim about every step is a claim about the bus and about ten effects. -/

namespace Sys2Proof.Machine

/-- The pseudocode of a command, run on the state in which it was accepted. -/
def effect : Instr → State → State
  | .clear, s => s.clearModel
  | .trainSym x, s => s.countSymbol x
  | .build, s => s.buildModel
  | .getCode x, s => s.lookUp x
  | .encBegin, s => { s.beginTxn with phase := .enc }
  | .encSym x, s => transact (State.appendCode x) s
  | .encEnd, s => { s.commit with phase := .ready }
  | .decBegin, s => { s.beginTxn with cursor := s.root, phase := .dec }
  | .decBit t, s => transact (State.takeToken t) s
  | .decEnd, s => { s.checkTruncated.commit with phase := .ready }

theorem exec_eq_effect (i : Instr) (s : State) : exec i s = accept i (effect i) s := by
  cases i <;> rfl

theorem exec_of_legal {i : Instr} {s : State} (h : legalPhase i s.phase = true) :
    exec i s = .next (effect i s.accepted) := by
  rw [exec_eq_effect, accept_of_legal h]

theorem exec_of_illegal {i : Instr} {s : State} (h : legalPhase i s.phase = false) :
    exec i s = .next { s with cmdErr := .badPhase } := by
  rw [exec_eq_effect, accept_of_illegal h]; rfl

theorem exec_cases {i : Instr} {s t : State} (h : exec i s = .next t) :
    (legalPhase i s.phase = true ∧ t = effect i s.accepted) ∨
      (legalPhase i s.phase = false ∧ t = s.raiseCmdError .badPhase) :=
  accept_cases (exec_eq_effect i s ▸ h)

/-! ## The commands of an open transaction -/

/-- What ENC_SYM can do to the state: nothing after a data error, latch one, or append a codeword that fits (R153, R207). -/
theorem effect_encSym_cases (x : Sym) (s : State) :
    (s.txnErr ≠ .none ∧ effect (.encSym x) s = s) ∨
      (s.txnErr = .none ∧ ∃ e, effect (.encSym x) s = s.raiseTxnError e) ∨
      (s.txnErr = .none ∧ s.workLen.toNat + (s.ct.lenOf x).toNat ≤ Config.outCap ∧
        effect (.encSym x) s = { s with
          outbuf := shiftOut s.outbuf s.workLen.toNat (s.ct.bitsOf x) (s.ct.lenOf x).toNat
          workLen := s.workLen + BitVec.ofNat 17 (s.ct.lenOf x).toNat }) := by
  rcases transact_cases (State.appendCode x) s with ⟨he, h⟩ | ⟨he, t, hb, h⟩ | ⟨he, e, -, h⟩
  · exact .inl ⟨he, h⟩
  · rcases s.appendCode_cases x with ⟨-, ha⟩ | ⟨-, -, ha⟩ | ⟨-, hfit, ha⟩
    · rw [ha] at hb; cases hb
    · rw [ha] at hb; cases hb
    · rw [ha] at hb; cases hb
      exact .inr (.inr ⟨he, hfit, h⟩)
  · exact .inr (.inl ⟨he, e, h⟩)

/-- What DEC_BIT can do to the state: nothing after a data error, latch one, emit one symbol, or move the cursor (R172 to R174,
R207). -/
theorem effect_decBit_cases (t : Byte) (s : State) :
    (s.txnErr ≠ .none ∧ effect (.decBit t) s = s) ∨
      (s.txnErr = .none ∧ ∃ e, effect (.decBit t) s = s.raiseTxnError e) ∨
      (s.txnErr = .none ∧ s.workLen.toNat < Config.outCap ∧ ∃ v c, effect (.decBit t) s =
        { s with outbuf := s.outbuf.write s.workLen.toNat v, workLen := s.workLen + 1, cursor := c }) ∨
      (s.txnErr = .none ∧ ∃ c, effect (.decBit t) s = { s with cursor := c }) := by
  rcases transact_cases (State.takeToken t) s with ⟨he, h⟩ | ⟨he, u, hb, h⟩ | ⟨he, e, -, h⟩
  · exact .inl ⟨he, h⟩
  · rcases State.takeToken_ok hb with ⟨v, c, hlt, rfl, -⟩ | ⟨b, -, -, -, rfl⟩
    · exact .inr (.inr (.inl ⟨he, hlt, v, c, h⟩))
    · exact .inr (.inr (.inr ⟨he, _, h⟩))
  · exact .inr (.inl ⟨he, e, h⟩)

/-- The commands of an open transaction change only OUTBUF, WORK_LEN, CURSOR and TXN_ERR, which they never clear. -/
theorem effect_encSym_frame (x : Sym) (s : State) : ∃ m k e, effect (.encSym x) s =
    { s with outbuf := m, workLen := k, txnErr := e } ∧ (s.txnErr ≠ .none → e = s.txnErr) := by
  rcases effect_encSym_cases x s with ⟨-, h⟩ | ⟨he, e, h⟩ | ⟨-, -, h⟩
  · exact ⟨_, _, _, h, fun _ => rfl⟩
  · exact ⟨_, _, _, h, fun hn => absurd he hn⟩
  · exact ⟨_, _, _, h, fun _ => rfl⟩

theorem effect_decBit_frame (t : Byte) (s : State) : ∃ m k c e, effect (.decBit t) s =
    { s with outbuf := m, workLen := k, cursor := c, txnErr := e } ∧ (s.txnErr ≠ .none → e = s.txnErr) := by
  rcases effect_decBit_cases t s with ⟨-, h⟩ | ⟨he, e, h⟩ | ⟨-, -, v, c, h⟩ | ⟨-, c, h⟩
  · exact ⟨_, _, _, _, h, fun _ => rfl⟩
  · exact ⟨_, _, _, _, h, fun hn => absurd he hn⟩
  · exact ⟨_, _, _, _, h, fun _ => rfl⟩
  · exact ⟨_, _, _, _, h, fun _ => rfl⟩

/-! ## A step over effects -/

/-- The states agree in everything but CMD_ERR, DROPPED, what the sequencer is doing and the host's side. -/
def State.sameRegs (s t : State) : Prop :=
  ∃ c d a n h l, t = { s with cmdErr := c, dropped := d, activity := a, draws := n, host := h, readLog := l }

theorem State.sameRegs_release_accepted (s : State) : s.sameRegs s.release.accepted :=
  ⟨_, _, _, _, _, _, rfl⟩

theorem State.sameRegs_of_serveHost_eq {s : State} {a : Activity} {t : State}
    (h : t = serveHost { s with activity := a }) :
    s.sameRegs t ∨ ∃ rest, s.host = .rst :: rest ∧ t = State.hardReset { s with activity := a, host := rest } := by
  subst h
  rcases serveHost_cases { s with activity := a } with h | ⟨-, -, log, -, new, h, -⟩ |
    ⟨off, v, rest, -, -, ⟨-, h⟩ | ⟨-, h⟩⟩ | ⟨rest, hh, h⟩
  · exact .inl ⟨_, _, _, _, _, _, h⟩
  · exact .inl ⟨_, _, _, _, _, _, h⟩
  · exact .inl ⟨_, _, _, _, _, _, h⟩
  · exact .inl ⟨_, _, _, _, _, _, h⟩
  · exact .inr ⟨rest, hh, h⟩

/-- What a step can do to the block's registers: leave all but the bus's side as they are, serve RST, or complete a legal command
by its effect. -/
theorem step_effect_cases {s t : State} (h : step s = .next t) :
    s.sameRegs t ∨
      (∃ a rest, s.host = .rst :: rest ∧ t = State.hardReset { s with activity := a, host := rest }) ∨
      ∃ w old i, s.activity = .running w old 0 ∧ decode w = .ok i ∧ legalPhase i s.phase = true ∧
        t = effect i s.release.accepted := by
  rcases step_cases h with ⟨a, ht, -⟩ | ⟨-, rfl⟩ | ⟨w, d, e, -, -, rfl⟩ | ⟨w, d, i, ha, hd, hx⟩
  · exact (State.sameRegs_of_serveHost_eq ht).imp_right fun ⟨rest, hr⟩ => .inl ⟨a, rest, hr⟩
  · exact .inl ⟨_, _, _, _, _, _, rfl⟩
  · exact .inl ⟨_, _, _, _, _, _, rfl⟩
  · rcases exec_cases hx with ⟨hl, ht⟩ | ⟨-, rfl⟩
    · exact .inr (.inr ⟨w, d, i, ha, hd, hl, ht⟩)
    · exact .inl ⟨_, _, _, _, _, _, rfl⟩

/-- An invariant of every step, in three parts: it does not look at the bus's side, RST establishes it, and every effect keeps
it in the phases in which its command is legal. -/
theorem step_keeps {P : State → Prop} (frame : ∀ {s t : State}, s.sameRegs t → P s → P t)
    (reset : ∀ s, P (State.hardReset s))
    (run : ∀ i s, legalPhase i s.phase = true → P s → P (effect i s))
    {s t : State} (hs : P s) (h : step s = .next t) : P t := by
  rcases step_effect_cases h with hst | ⟨a, rest, -, rfl⟩ | ⟨w, old, i, -, -, hl, rfl⟩
  · exact frame hst hs
  · exact reset _
  · exact run i _ hl (frame s.sameRegs_release_accepted hs)

theorem ne_train_of_legal {i : Instr} {s : State} (hl : legalPhase i s.phase = true) (hi : legalPhase i .train = false) :
    s.phase ≠ .train := fun hp => by rw [hp, hi] at hl; cases hl

/-- What the sequencer is doing settles what a step does, whatever the rest of the state is: serve the host, end the
initialisation, reject an illegal word, or run a command. -/
theorem step_shape (act : Activity) :
    (∃ a, ∀ s : State, s.activity = act → step s = .next (serveHost { s with activity := a })) ∨
      (∀ s : State, s.activity = act → step s = .next s.release) ∨
      (∀ s : State, s.activity = act → step s = .next (s.release.raiseCmdError .illegalCommand)) ∨
      ∃ i, ∀ s : State, s.activity = act → step s = exec i s.release := by
  cases act with
  | idle =>
    refine .inl ⟨.idle, fun s h => step_of_settled ?_⟩
    have eta : { s with activity := .idle } = s := by rw [← h]
    simp only [nextEvent, h, eta]
  | initialising n =>
    cases n with
    | zero => exact .inr (.inl fun s h => step_of_settled (by simp only [nextEvent, h]))
    | succ n => exact .inl ⟨.initialising n, fun s h => step_of_settled (by simp only [nextEvent, h])⟩
  | running w d n =>
    cases n with
    | zero =>
      cases hd : decode w with
      | ok i => exact .inr (.inr (.inr ⟨i, fun s h => step_of_execute (by simp only [nextEvent, h, hd])⟩))
      | error e => exact .inr (.inr (.inl fun s h => step_of_settled (by simp only [nextEvent, h, hd])))
    | succ n => exact .inl ⟨.running w d n, fun s h => step_of_settled (by simp only [nextEvent, h])⟩

/-! ## The host's actions, one equation each (R71, R92) -/

section Host

variable {s : State} {rest : List HostAction}

theorem serveHost_nil (h : s.host = []) : serveHost s = s := by simp [serveHost, h]

theorem serveHost_read {off : Offset} (h : s.host = .read off :: rest) :
    serveHost s = { s with host := rest, readLog := memRead s off :: s.readLog } := by simp [serveHost, h]

theorem serveHost_write {off : Offset} {v : Word} (h : s.host = .write off v :: rest) :
    serveHost s = memWrite { s with host := rest } off v := by simp [serveHost, h]

theorem serveHost_wait (h : s.host = .wait :: rest) : serveHost s = if s.busy then s else { s with host := rest } := by
  simp [serveHost, h]

theorem serveHost_readout (h : s.host = .readout :: rest) :
    serveHost s = { s with host := readout (s.readLog.headD 0).toNat ++ rest } := by simp [serveHost, h]

theorem serveHost_rst (h : s.host = .rst :: rest) : serveHost s = State.hardReset { s with host := rest } := by
  simp [serveHost, h]

end Host

/-- CMD is the word at offset 0 (R61, R62). -/
theorem alignedOffset_eq_zero_iff (off : Offset) : alignedOffset off = 0 ↔ off < 4 := by
  simp only [alignedOffset, BitVec.lt_def]
  change _ ↔ off.toNat < 4
  omega

end Sys2Proof.Machine

/-! ## The heap keeps its entries (R127, R128)

The shape of the tree rests only on which entries a push adds and a pop removes; the heap order plays no part in it. -/

namespace Sys2Proof.Machine

/-- HEAP[0] to HEAP[m - 1]. -/
def TreeBuilder.slots (m : Nat) (b : TreeBuilder) : List NodeIdx :=
  (List.range m).map b.heapAt

theorem TreeBuilder.entries_eq_slots (b : TreeBuilder) : b.entries = b.slots b.hsize.toNat := rfl

theorem TreeBuilder.slots_congr {a b : TreeBuilder} {m : Nat} (h : ∀ i < m, a.heapAt i = b.heapAt i) :
    a.slots m = b.slots m :=
  List.map_congr_left fun i hi => h i (List.mem_range.1 hi)

theorem TreeBuilder.slots_succ (m : Nat) (b : TreeBuilder) : b.slots (m + 1) = b.slots m ++ [b.heapAt m] := by
  simp [TreeBuilder.slots, List.range_succ]

theorem TreeBuilder.slots_setHeap_of_le (b : TreeBuilder) {m i : Nat} (h : m ≤ i) (x : NodeIdx) :
    (b.setHeap i x).slots m = b.slots m :=
  TreeBuilder.slots_congr fun j hj => b.heapAt_setHeap_of_ne (by omega) x

/-- After a swap position `k` holds what its partner held. -/
theorem TreeBuilder.heapAt_swapHeap (b : TreeBuilder) {i j : Nat} (hi : i < 256) (hj : j < 256) (k : Nat) :
    (b.swapHeap i j).heapAt k = b.heapAt (Equiv.swap i j k) := by
  unfold TreeBuilder.swapHeap
  by_cases hkj : k = j
  · rw [hkj, TreeBuilder.heapAt_setHeap_self _ hj, Equiv.swap_apply_right]
  · rw [TreeBuilder.heapAt_setHeap_of_ne _ hkj]
    by_cases hki : k = i
    · rw [hki, TreeBuilder.heapAt_setHeap_self _ hi, Equiv.swap_apply_left]
    · rw [TreeBuilder.heapAt_setHeap_of_ne _ hki, Equiv.swap_apply_of_ne_of_ne hki hkj]

theorem swap_lt {i j m k : Nat} (hi : i < m) (hj : j < m) (hk : k < m) : Equiv.swap i j k < m := by
  rw [Equiv.swap_apply_def]; split <;> [exact hj; (split <;> assumption)]

theorem map_swap_range_perm {i j m : Nat} (hi : i < m) (hj : j < m) :
    ((List.range m).map (Equiv.swap i j)).Perm (List.range m) := by
  rw [List.perm_ext_iff_of_nodup (List.nodup_range.map (Equiv.swap i j).injective) List.nodup_range]
  intro k
  simp only [List.mem_map, List.mem_range]
  exact ⟨fun ⟨l, hl, h⟩ => h ▸ swap_lt hi hj hl, fun hk => ⟨Equiv.swap i j k, swap_lt hi hj hk, by simp⟩⟩

theorem TreeBuilder.slots_swapHeap_perm (b : TreeBuilder) {i j m : Nat} (hi : i < m) (hj : j < m) (hm : m ≤ 256) :
    ((b.swapHeap i j).slots m).Perm (b.slots m) := by
  have h : (b.swapHeap i j).slots m = ((List.range m).map (Equiv.swap i j)).map b.heapAt := by
    rw [List.map_map]
    exact List.map_congr_left fun k _ => b.heapAt_swapHeap (by omega) (by omega) k
  rw [h]
  exact (map_swap_range_perm hi hj).map _

theorem siftUp_slots_perm {m : Nat} (hm : m ≤ 256) (fuel i : Nat) (b : TreeBuilder) (hi : i < m) :
    ((siftUp fuel i b).slots m).Perm (b.slots m) := by
  induction fuel generalizing i b with
  | zero => exact .refl _
  | succ n ih =>
    simp only [siftUp]
    split
    · exact .refl _
    · split
      · exact (ih _ _ (by omega)).trans (b.slots_swapHeap_perm hi (by omega) hm)
      · exact .refl _

/-- The loop of heap_pop stays at its position or goes to a child below HSIZE (R128). -/
theorem leastChild_lt {b : TreeBuilder} {i : Nat} (hi : i < b.hsize.toNat) : leastChild b i < b.hsize.toNat := by
  simp only [leastChild]
  split <;> split <;> omega

theorem siftDown_slots_perm (fuel i : Nat) (b : TreeBuilder) (hm : b.hsize.toNat ≤ 256) (hi : i < b.hsize.toNat) :
    ((siftDown fuel i b).slots b.hsize.toNat).Perm (b.slots b.hsize.toNat) := by
  induction fuel generalizing i b with
  | zero => exact .refl _
  | succ n ih =>
    simp only [siftDown]
    split
    · exact .refl _
    · have hstep := ih (leastChild b i) (b.swapHeap i (leastChild b i))
      rw [TreeBuilder.swapHeap_hsize] at hstep
      exact (hstep hm (leastChild_lt hi)).trans (b.slots_swapHeap_perm hi (leastChild_lt hi) hm)

theorem hsize_succ_toNat {h : BitVec 9} (hlt : h.toNat ≤ 256) : (h + 1).toNat = h.toNat + 1 := by
  bv_omega

theorem hsize_pred_toNat {h : BitVec 9} (hpos : 1 ≤ h.toNat) : (h - 1).toNat = h.toNat - 1 := by
  bv_omega

/-- heap_push adds one entry (R127). -/
theorem heapPush_entries_perm (x : NodeIdx) (b : TreeBuilder) (h : b.hsize.toNat < 256) :
    (heapPush x b).entries.Perm (x :: b.entries) := by
  have hperm := siftUp_slots_perm (m := b.hsize.toNat + 1) (by omega) b.hsize.toNat b.hsize.toNat
    { b.setHeap b.hsize.toNat x with hsize := b.hsize + 1 } (by omega)
  have hslots : TreeBuilder.slots (b.hsize.toNat + 1) { b.setHeap b.hsize.toNat x with hsize := b.hsize + 1 } =
      b.entries ++ [x] := by
    change (b.setHeap b.hsize.toNat x).slots _ = _
    rw [TreeBuilder.slots_succ, b.slots_setHeap_of_le (Nat.le_refl _), b.heapAt_setHeap_self h]
    rfl
  rw [TreeBuilder.entries_eq_slots, heapPush_hsize, hsize_succ_toNat (by omega)]
  exact (hslots ▸ hperm).trans (List.perm_append_singleton x _)

/-- The heap of heap_pop before its loop: HSIZE lowered and the last entry moved to position 0 (R128). -/
def TreeBuilder.lastToFront (b : TreeBuilder) : TreeBuilder :=
  { b.setHeap 0 (b.heapAt (b.hsize - 1).toNat) with hsize := b.hsize - 1 }

@[simp] theorem TreeBuilder.lastToFront_hsize (b : TreeBuilder) : b.lastToFront.hsize = b.hsize - 1 := rfl

theorem TreeBuilder.heapAt_lastToFront_zero (b : TreeBuilder) :
    b.lastToFront.heapAt 0 = b.heapAt (b.hsize - 1).toNat :=
  b.heapAt_setHeap_self (by omega) _

theorem TreeBuilder.heapAt_lastToFront_of_pos (b : TreeBuilder) {i : Nat} (h : 0 < i) :
    b.lastToFront.heapAt i = b.heapAt i :=
  b.heapAt_setHeap_of_ne (by omega) _

theorem heapPop_snd_of_last {b : TreeBuilder} (h : b.hsize - 1 = 0) : (heapPop b).2 = { b with hsize := b.hsize - 1 } := by
  simp only [heapPop, if_pos h]

theorem heapPop_snd_of_more {b : TreeBuilder} (h : b.hsize - 1 ≠ 0) :
    (heapPop b).2 = siftDown (b.hsize - 1).toNat 0 b.lastToFront := by
  simp only [heapPop, if_neg h]; rfl

theorem TreeBuilder.slots_succ_eq_cons (m : Nat) (b : TreeBuilder) :
    b.slots (m + 1) = b.heapAt 0 :: (List.range m).map fun i => b.heapAt (i + 1) := by
  simp [TreeBuilder.slots, List.range_succ_eq_map]

/-- heap_pop removes the entry it answers (R128). -/
theorem heapPop_entries_perm (b : TreeBuilder) (h1 : 1 ≤ b.hsize.toNat) (h2 : b.hsize.toNat ≤ 256) :
    b.entries.Perm ((heapPop b).1 :: (heapPop b).2.entries) := by
  have hpred := hsize_pred_toNat h1
  obtain ⟨m, hm⟩ : ∃ m, b.hsize.toNat = m + 1 := ⟨b.hsize.toNat - 1, by omega⟩
  rw [hm, Nat.add_sub_cancel] at hpred
  rw [TreeBuilder.entries_eq_slots, TreeBuilder.entries_eq_slots, heapPop_hsize, heapPop_fst, hpred, hm]
  cases m with
  | zero => exact .refl _
  | succ m =>
    have hsift := siftDown_slots_perm (m + 1) 0 b.lastToFront
      (by rw [TreeBuilder.lastToFront_hsize]; omega) (by rw [TreeBuilder.lastToFront_hsize]; omega)
    have hslots : b.lastToFront.slots (m + 1) = b.heapAt (m + 1) :: (List.range m).map fun i => b.heapAt (i + 1) := by
      rw [TreeBuilder.slots_succ_eq_cons, b.heapAt_lastToFront_zero, hpred]
      simp [TreeBuilder.heapAt_lastToFront_of_pos]
    rw [TreeBuilder.lastToFront_hsize, hpred, hslots] at hsift
    have hne : b.hsize - 1 ≠ 0 := fun h => by rw [h] at hpred; cases hpred
    rw [heapPop_snd_of_more hne, hpred, TreeBuilder.slots_succ, b.slots_succ_eq_cons, List.cons_append]
    exact ((List.perm_append_singleton _ _).trans hsift.symm).cons _

end Sys2Proof.Machine

/-! ## BUILD in stages (R120 to R126)

Leaf creation, heap fill, and merge loop, each named and said once. -/

namespace Sys2Proof.Machine

/-! ### Leaf creation (R121) -/

/-- The symbols of a list with a non-zero count, in the list's order. -/
def presentSyms (freq : Sym → Count) (xs : List Sym) : List Sym :=
  xs.filter fun x => 0 < freq x

theorem mem_presentSyms {freq : Sym → Count} {xs : List Sym} {x : Sym} :
    x ∈ presentSyms freq xs ↔ x ∈ xs ∧ 0 < freq x := by
  simp [presentSyms]

theorem presentSyms_cons_of_pos {freq : Sym → Count} {x : Sym} (h : 0 < freq x) (xs : List Sym) :
    presentSyms freq (x :: xs) = x :: presentSyms freq xs :=
  List.filter_cons_of_pos (by simpa using h)

theorem presentSyms_cons_of_not_pos {freq : Sym → Count} {x : Sym} (h : ¬ 0 < freq x) (xs : List Sym) :
    presentSyms freq (x :: xs) = presentSyms freq xs :=
  List.filter_cons_of_neg (by simpa using h)

theorem length_allSyms : allSyms.length = 256 := by
  simp [allSyms]

theorem length_presentSyms_le (freq : Sym → Count) : (presentSyms freq allSyms).length ≤ 256 :=
  length_allSyms ▸ List.length_filter_le _ _

theorem allSyms_pairwise_lt : allSyms.Pairwise (· < ·) := by
  refine List.pairwise_map.2 (List.pairwise_lt_range.imp_of_mem fun {a b} _ hb hab => ?_)
  have hb : b < 256 := List.mem_range.1 hb
  rw [BitVec.lt_def, BitVec.toNat_ofNat, BitVec.toNat_ofNat, Nat.mod_eq_of_lt, Nat.mod_eq_of_lt] <;> omega

theorem presentSyms_pairwise_lt (freq : Sym → Count) : (presentSyms freq allSyms).Pairwise (· < ·) :=
  allSyms_pairwise_lt.filter _

/-- Symbols that are not present add nothing to a sum of counts. -/
theorem sum_presentSyms (freq : Sym → Count) (xs : List Sym) :
    ((presentSyms freq xs).map fun x => (freq x).toNat).sum = (xs.map fun x => (freq x).toNat).sum := by
  induction xs with
  | nil => rfl
  | cons x xs ih =>
    by_cases h : 0 < freq x
    · rw [presentSyms_cons_of_pos h, List.map_cons, List.map_cons, List.sum_cons, List.sum_cons, ih]
    · have h0 : (freq x).toNat = 0 := by bv_omega
      rw [presentSyms_cons_of_not_pos h, List.map_cons, List.sum_cons, ih, h0, Nat.zero_add]

/-- The node is a leaf of symbol `x` with the symbol's count (R121). -/
def isLeafOf (freq : Sym → Count) (x : Sym) (a : Node) : Prop :=
  a.isLeaf = true ∧ a.sym = x ∧ a.weight = freq x

theorem toNat_nodeIdx_ofNat {n : Nat} (h : n < 512) : (BitVec.ofNat 9 n).toNat = n := by
  rw [BitVec.toNat_ofNat, Nat.mod_eq_of_lt h]

theorem makeLeaves_count (freq : Sym → Count) (xs : List Sym) (n : Nat) (b : TreeBuilder) :
    (makeLeaves freq xs n b).2 = n + (presentSyms freq xs).length := by
  induction xs generalizing n b with
  | nil => rfl
  | cons x xs ih =>
    simp only [makeLeaves]
    split
    · next h => rw [ih, presentSyms_cons_of_pos h, List.length_cons]; omega
    · next h => rw [ih, presentSyms_cons_of_not_pos h]

/-- Leaf creation leaves the nodes below its first index as they are. -/
theorem makeLeaves_nodeAt_below (freq : Sym → Count) (xs : List Sym) (n : Nat) (b : TreeBuilder)
    (hn : n + (presentSyms freq xs).length ≤ 511) {k : NodeIdx} (hk : k.toNat < n) :
    (makeLeaves freq xs n b).1.nodeAt k = b.nodeAt k := by
  induction xs generalizing n b with
  | nil => rfl
  | cons x xs ih =>
    simp only [makeLeaves]
    split
    · next h =>
      rw [presentSyms_cons_of_pos h, List.length_cons] at hn
      have hne : k ≠ BitVec.ofNat 9 n := fun hkn => by rw [hkn, toNat_nodeIdx_ofNat (by omega)] at hk; omega
      rw [ih _ _ (by omega) (by omega)]
      exact b.nodeAt_setNode_of_ne hne _
    · next h => rw [presentSyms_cons_of_not_pos h] at hn; exact ih _ _ hn hk

/-- Leaf creation puts the symbols present, in order, on the nodes from its first index on. -/
theorem makeLeaves_nodeAt (freq : Sym → Count) (xs : List Sym) (n : Nat) (b : TreeBuilder)
    (hn : n + (presentSyms freq xs).length ≤ 511) (i : Nat) (hi : i < (presentSyms freq xs).length) :
    isLeafOf freq (presentSyms freq xs)[i] ((makeLeaves freq xs n b).1.nodeAt (BitVec.ofNat 9 (n + i))) := by
  induction xs generalizing n b i with
  | nil => simp [presentSyms] at hi
  | cons x xs ih =>
    simp only [makeLeaves]
    split
    · next h =>
      simp only [presentSyms_cons_of_pos h, List.length_cons] at hn hi ⊢
      cases i with
      | zero =>
        have hself : isLeafOf freq x ((b.writeLeaf (BitVec.ofNat 9 n) x (freq x)).nodeAt (BitVec.ofNat 9 n)) := by
          rw [TreeBuilder.writeLeaf, b.nodeAt_setNode_self (by rw [toNat_nodeIdx_ofNat] <;> omega)]
          exact ⟨rfl, rfl, rfl⟩
        rw [Nat.add_zero, makeLeaves_nodeAt_below _ _ _ _ (by omega) (by rw [toNat_nodeIdx_ofNat] <;> omega)]
        exact hself
      | succ i =>
        have := ih (n + 1) (b.writeLeaf (BitVec.ofNat 9 n) x (freq x)) (by omega) i (by omega)
        rwa [show n + 1 + i = n + (i + 1) by omega] at this
    · next h =>
      simp only [presentSyms_cons_of_not_pos h] at hn hi ⊢
      exact ih _ _ hn _ hi

/-- The store once the leaves are made and before the heap is filled (R121, R124). -/
def leafStore (freq : Sym → Count) (b : TreeBuilder) : TreeBuilder :=
  { (makeLeaves freq allSyms 0 b).1 with next := BitVec.ofNat 9 (presentSyms freq allSyms).length, hsize := 0 }

theorem leafStore_next_toNat (freq : Sym → Count) (b : TreeBuilder) :
    (leafStore freq b).next.toNat = (presentSyms freq allSyms).length :=
  toNat_nodeIdx_ofNat (by have := length_presentSyms_le freq; omega)

theorem leafStore_nodeAt (freq : Sym → Count) (b : TreeBuilder) (k : NodeIdx)
    (hk : k.toNat < (presentSyms freq allSyms).length) :
    isLeafOf freq (presentSyms freq allSyms)[k.toNat] ((leafStore freq b).nodeAt k) := by
  have hn := length_presentSyms_le freq
  have := makeLeaves_nodeAt freq allSyms 0 b (by omega) k.toNat hk
  rwa [Nat.zero_add, BitVec.ofNat_toNat, BitVec.setWidth_eq] at this

/-! ### Heap fill (R124) -/

theorem fillHeap_succ (n : Nat) (b : TreeBuilder) :
    fillHeap (n + 1) b = heapPush (BitVec.ofNat 9 n) (fillHeap n b) := by
  simp [fillHeap, List.range_succ]

@[simp] theorem fillHeap_node (n : Nat) (b : TreeBuilder) : (fillHeap n b).node = b.node := by
  induction n with
  | zero => rfl
  | succ n ih => rw [fillHeap_succ, heapPush_node, ih]

@[simp] theorem fillHeap_next (n : Nat) (b : TreeBuilder) : (fillHeap n b).next = b.next := by
  induction n with
  | zero => rfl
  | succ n ih => rw [fillHeap_succ, heapPush_next, ih]

theorem fillHeap_hsize (n : Nat) (b : TreeBuilder) (hb : b.hsize = 0) : (fillHeap n b).hsize = BitVec.ofNat 9 n := by
  induction n with
  | zero => exact hb
  | succ n ih => rw [fillHeap_succ, heapPush_hsize, ih, BitVec.ofNat_add]; rfl

theorem fillHeap_hsize_toNat {n : Nat} (hn : n ≤ 256) {b : TreeBuilder} (hb : b.hsize = 0) :
    (fillHeap n b).hsize.toNat = n := by
  rw [fillHeap_hsize n b hb, toNat_nodeIdx_ofNat (by omega)]

theorem fillHeap_entries_perm {n : Nat} (hn : n ≤ 256) {b : TreeBuilder} (hb : b.hsize = 0) :
    (fillHeap n b).entries.Perm ((List.range n).map (BitVec.ofNat 9)) := by
  induction n with
  | zero => rw [TreeBuilder.entries_eq_slots, fillHeap_hsize_toNat hn hb]; exact .refl _
  | succ n ih =>
    have hlt : (fillHeap n b).hsize.toNat < 256 := by rw [fillHeap_hsize_toNat (by omega) hb]; omega
    rw [fillHeap_succ, List.range_succ, List.map_append]
    exact (heapPush_entries_perm _ _ hlt).trans
      (((ih (by omega)).cons _).trans (List.perm_append_singleton _ _).symm)

/-! ### One pass of the merge loop (R125) -/

/-- The node a pass of the merge loop takes as left child. -/
def mergeLeft (b : TreeBuilder) : NodeIdx :=
  (heapPop b).1

/-- The node a pass of the merge loop takes as right child. -/
def mergeRight (b : TreeBuilder) : NodeIdx :=
  (heapPop (heapPop b).2).1

/-- The store after a pass's two pops. -/
def mergeRest (b : TreeBuilder) : TreeBuilder :=
  (heapPop (heapPop b).2).2

@[simp] theorem mergeRest_node (b : TreeBuilder) : (mergeRest b).node = b.node := by simp [mergeRest]
@[simp] theorem mergeRest_next (b : TreeBuilder) : (mergeRest b).next = b.next := by simp [mergeRest]
theorem mergeRest_hsize (b : TreeBuilder) : (mergeRest b).hsize = b.hsize - 1 - 1 := by
  rw [mergeRest, heapPop_hsize, heapPop_hsize]

/-- The store after a pass wrote its internal node and before it pushes it. -/
def mergeWritten (b : TreeBuilder) : TreeBuilder :=
  (mergeRest b).writeInternal b.next ((b.nodeAt (mergeLeft b)).weight + (b.nodeAt (mergeRight b)).weight)
    (mergeLeft b) (mergeRight b)

theorem mergeStep_eq (b : TreeBuilder) :
    mergeStep b = { heapPush b.next (mergeWritten b) with next := b.next + 1 } := by
  have hw (k : NodeIdx) : (mergeRest b).nodeAt k = b.nodeAt k := TreeBuilder.nodeAt_congr (mergeRest_node b) k
  have hl := hw (mergeLeft b)
  have hr := hw (mergeRight b)
  have hn := mergeRest_next b
  simp only [mergeRest, mergeLeft, mergeRight] at hl hr hn
  simp only [mergeStep, mergeWritten, mergeRest, mergeLeft, mergeRight, hl, hr, hn, TreeBuilder.writeInternal_next,
    heapPush_next]

theorem nodeAt_mergeStep_self {b : TreeBuilder} (h : b.next.toNat < 511) :
    (mergeStep b).nodeAt b.next = { b.nodeAt b.next with
      isLeaf := false
      weight := (b.nodeAt (mergeLeft b)).weight + (b.nodeAt (mergeRight b)).weight
      left := mergeLeft b
      right := mergeRight b } := by
  rw [mergeStep_eq, ← TreeBuilder.nodeAt_congr (mergeRest_node b)]
  refine (TreeBuilder.nodeAt_congr (heapPush_node _ _) _).trans ?_
  exact (mergeRest b).nodeAt_setNode_self h _

theorem nodeAt_mergeStep_of_ne {b : TreeBuilder} {k : NodeIdx} (h : k ≠ b.next) :
    (mergeStep b).nodeAt k = b.nodeAt k := by
  rw [mergeStep_eq, ← TreeBuilder.nodeAt_congr (mergeRest_node b)]
  refine (TreeBuilder.nodeAt_congr (heapPush_node _ _) _).trans ?_
  exact (mergeRest b).nodeAt_setNode_of_ne h _

/-- A pass pops its two children from the queue. -/
theorem entries_perm_mergeRest {b : TreeBuilder} (h1 : 2 ≤ b.hsize.toNat) (h2 : b.hsize.toNat ≤ 256) :
    b.entries.Perm (mergeLeft b :: mergeRight b :: (mergeRest b).entries) := by
  have hpop : (heapPop b).2.hsize.toNat = b.hsize.toNat - 1 := by
    rw [heapPop_hsize, hsize_pred_toNat (by omega)]
  exact (heapPop_entries_perm b (by omega) h2).trans
    ((heapPop_entries_perm _ (by omega) (by omega)).cons _)

/-- A pass pushes its new node onto the queue. -/
theorem mergeStep_entries_perm {b : TreeBuilder} (h1 : 2 ≤ b.hsize.toNat) (h2 : b.hsize.toNat ≤ 256) :
    (mergeStep b).entries.Perm (b.next :: (mergeRest b).entries) := by
  rw [mergeStep_eq]
  refine heapPush_entries_perm b.next (mergeWritten b) ?_
  change (mergeRest b).hsize.toNat < 256
  rw [mergeRest_hsize]
  bv_omega

/-! ### The merge loop (R125) -/

/-- What every pass keeps, the merge loop keeps. -/
theorem mergeLoop_keeps {P : TreeBuilder → Prop} (pass : ∀ b, 1 < b.hsize → P b → P (mergeStep b)) (fuel : Nat)
    (b : TreeBuilder) (hb : P b) : P (mergeLoop fuel b) := by
  induction fuel generalizing b with
  | zero => exact hb
  | succ n ih =>
    simp only [mergeLoop]
    split
    · next h => exact ih _ (pass b h hb)
    · exact hb

/-- The merge loop ends with one entry (R125). -/
theorem mergeLoop_hsize (fuel : Nat) (b : TreeBuilder) (h1 : 1 ≤ b.hsize.toNat) (h2 : b.hsize.toNat ≤ fuel) :
    (mergeLoop fuel b).hsize = 1 := by
  induction fuel generalizing b with
  | zero => omega
  | succ n ih =>
    simp only [mergeLoop]
    split
    · next h =>
      have : (mergeStep b).hsize.toNat = b.hsize.toNat - 1 := by rw [mergeStep_hsize, hsize_pred_toNat h1]
      have : 1 < b.hsize.toNat := h
      exact ih _ (by omega) (by omega)
    · next h =>
      have : ¬ 1 < b.hsize.toNat := h
      exact BitVec.eq_of_toNat_eq (by change _ = 1; omega)

/-! ### The Tree Builder (R121 to R126) -/

/-- The store once the heap is filled (R124). -/
def queueStore (freq : Sym → Count) (b : TreeBuilder) : TreeBuilder :=
  fillHeap (presentSyms freq allSyms).length (leafStore freq b)

/-- The store once the merge loop is done (R125). -/
def mergedStore (freq : Sym → Count) (b : TreeBuilder) : TreeBuilder :=
  mergeLoop (presentSyms freq allSyms).length (queueStore freq b)

theorem queueStore_hsize_toNat (freq : Sym → Count) (b : TreeBuilder) :
    (queueStore freq b).hsize.toNat = (presentSyms freq allSyms).length :=
  fillHeap_hsize_toNat (length_presentSyms_le freq) rfl

theorem buildTree_n (freq : Sym → Count) (b : TreeBuilder) :
    (buildTree freq b).n = (presentSyms freq allSyms).length := by
  have hn := makeLeaves_count freq allSyms 0 b
  rw [Nat.zero_add] at hn
  simp only [buildTree, hn]
  split
  · next h => exact h.symm
  · rfl

theorem buildTree_of_empty {freq : Sym → Count} {b : TreeBuilder} (h : (presentSyms freq allSyms).length = 0) :
    buildTree freq b = ⟨leafStore freq b, 0, 0⟩ := by
  have hn := makeLeaves_count freq allSyms 0 b
  rw [Nat.zero_add] at hn
  simp only [buildTree, hn, if_pos h]
  rfl

theorem buildTree_of_present {freq : Sym → Count} {b : TreeBuilder} (h : (presentSyms freq allSyms).length ≠ 0) :
    buildTree freq b =
      ⟨(heapPop (mergedStore freq b)).2, (presentSyms freq allSyms).length, (heapPop (mergedStore freq b)).1⟩ := by
  have hn := makeLeaves_count freq allSyms 0 b
  rw [Nat.zero_add] at hn
  simp only [buildTree, hn, if_neg h]
  rfl

theorem mergedStore_hsize {freq : Sym → Count} (h : (presentSyms freq allSyms).length ≠ 0) (b : TreeBuilder) :
    (mergedStore freq b).hsize = 1 := by
  have := queueStore_hsize_toNat freq b
  exact mergeLoop_hsize _ _ (by omega) (by omega)

/-- BUILD leaves the heap empty (R34). -/
theorem buildTree_hsize (freq : Sym → Count) (b : TreeBuilder) : (buildTree freq b).tb.hsize = 0 := by
  by_cases h : (presentSyms freq allSyms).length = 0
  · rw [buildTree_of_empty h]; rfl
  · rw [buildTree_of_present h, heapPop_hsize, mergedStore_hsize h]; rfl

end Sys2Proof.Machine

/-! ## The merge loop builds a tree (R41, R125, R126)

Between passes the store is a forest: its roots are the entries of the heap, and every other node has one parent. -/

namespace Sys2Proof.Machine

/-- The store is a forest over `n` leaves whose roots are the entries of the heap (R41, R125). -/
structure TreeBuilder.Forest (n : Nat) (b : TreeBuilder) : Prop where
  n_le : n ≤ 256
  le_next : n ≤ b.next.toNat
  next_add_hsize : b.next.toNat + b.hsize.toNat = 2 * n
  nodup : b.entries.Nodup
  mem_entries : ∀ k, k ∈ b.entries ↔ b.queued n b.next k
  internal : ∀ k : NodeIdx, n ≤ k.toNat → k < b.next →
    (b.nodeAt k).isLeaf = false ∧ (b.nodeAt k).left < k ∧ (b.nodeAt k).right < k ∧
      (b.nodeAt k).weight = (b.nodeAt (b.nodeAt k).left).weight + (b.nodeAt (b.nodeAt k).right).weight
  one_parent : ∀ (p q : NodeIdx) (c d : Bool), n ≤ p.toNat → p < b.next → n ≤ q.toNat → q < b.next →
    b.child p c = b.child q d → p = q ∧ c = d

/-! ### A pass of the merge loop -/

theorem nodeAt_mergeStep_of_lt {b : TreeBuilder} {k : NodeIdx} (hk : k < b.next) : (mergeStep b).nodeAt k = b.nodeAt k :=
  nodeAt_mergeStep_of_ne (fun e => absurd (e ▸ hk) (by bv_omega))

theorem child_mergeStep_of_lt {b : TreeBuilder} {k : NodeIdx} (hk : k < b.next) (c : Bool) :
    (mergeStep b).child k c = b.child k c := by
  simp only [TreeBuilder.child, nodeAt_mergeStep_of_lt hk]

namespace TreeBuilder.Forest

variable {n : Nat} {b : TreeBuilder} (F : b.Forest n)
include F

theorem child_lt (p : NodeIdx) (hn : n ≤ p.toNat) (hp : p < b.next) (c : Bool) : b.child p c < p := by
  obtain ⟨-, hl, hr, -⟩ := F.internal p hn hp
  cases c
  · exact hl
  · exact hr

/-- A root is no node's child. -/
theorem child_ne_of_mem {k : NodeIdx} (hk : k ∈ b.entries) (p : NodeIdx) (hn : n ≤ p.toNat) (hp : p < b.next) (c : Bool) :
    b.child p c ≠ k := by
  obtain ⟨hl, hr⟩ := ((F.mem_entries k).1 hk).2 p hn hp
  cases c
  · exact hl
  · exact hr

theorem lt_next_of_mem {k : NodeIdx} (hk : k ∈ b.entries) : k < b.next :=
  ((F.mem_entries k).1 hk).1

/-- A node that is no root has a parent. -/
theorem exists_parent {k : NodeIdx} (hk : k < b.next) (hroot : k ∉ b.entries) :
    ∃ (p : NodeIdx) (c : Bool), n ≤ p.toNat ∧ p < b.next ∧ b.child p c = k := by
  by_contra hno
  refine hroot ((F.mem_entries k).2 ⟨hk, fun p hn hp => ⟨fun h => ?_, fun h => ?_⟩⟩)
  · exact hno ⟨p, false, hn, hp, h⟩
  · exact hno ⟨p, true, hn, hp, h⟩

theorem hsize_le : b.hsize.toNat ≤ 256 := by
  have := F.n_le; have := F.le_next; have := F.next_add_hsize; omega

theorem next_lt (h : 2 ≤ b.hsize.toNat) : b.next.toNat < 511 := by
  have := F.n_le; have := F.next_add_hsize; omega

theorem lt_mergeStep_next (h : 2 ≤ b.hsize.toNat) {k : NodeIdx} : k < (mergeStep b).next ↔ k < b.next ∨ k = b.next := by
  have := F.next_lt h
  rw [mergeStep_next]
  bv_omega

theorem entries_perm (h : 2 ≤ b.hsize.toNat) : b.entries.Perm (mergeLeft b :: mergeRight b :: (mergeRest b).entries) :=
  entries_perm_mergeRest h F.hsize_le

theorem mergeLeft_mem (h : 2 ≤ b.hsize.toNat) : mergeLeft b ∈ b.entries :=
  (F.entries_perm h).mem_iff.2 (by simp)

theorem mergeRight_mem (h : 2 ≤ b.hsize.toNat) : mergeRight b ∈ b.entries :=
  (F.entries_perm h).mem_iff.2 (by simp)

/-- The popped entries are two different roots, and no other root is one of them. -/
theorem popped_nodup (h : 2 ≤ b.hsize.toNat) : (mergeLeft b :: mergeRight b :: (mergeRest b).entries).Nodup :=
  (F.entries_perm h).nodup_iff.1 F.nodup

theorem mergeLeft_ne_mergeRight (h : 2 ≤ b.hsize.toNat) : mergeLeft b ≠ mergeRight b := by
  have := F.popped_nodup h
  simp only [List.nodup_cons, List.mem_cons] at this
  tauto

theorem mem_mergeRest (h : 2 ≤ b.hsize.toNat) {k : NodeIdx} :
    k ∈ (mergeRest b).entries ↔ k ∈ b.entries ∧ k ≠ mergeLeft b ∧ k ≠ mergeRight b := by
  have hnd := F.popped_nodup h
  simp only [List.nodup_cons, List.mem_cons] at hnd
  rw [(F.entries_perm h).mem_iff]
  simp only [List.mem_cons]
  constructor
  · intro hk
    exact ⟨.inr (.inr hk), fun e => hnd.1 (.inr (e ▸ hk)), fun e => hnd.2.1 (e ▸ hk)⟩
  · rintro ⟨hk | hk | hk, hl, hr⟩
    · exact absurd hk hl
    · exact absurd hk hr
    · exact hk

/-- The new node's children are the two popped roots. -/
theorem child_mergeStep_next (h : 2 ≤ b.hsize.toNat) (c : Bool) :
    (mergeStep b).child b.next c = if c then mergeRight b else mergeLeft b := by
  simp only [TreeBuilder.child, nodeAt_mergeStep_self (F.next_lt h)]

theorem child_mergeStep_next_mem (h : 2 ≤ b.hsize.toNat) (c : Bool) : (mergeStep b).child b.next c ∈ b.entries := by
  rw [F.child_mergeStep_next h]
  cases c
  · exact F.mergeLeft_mem h
  · exact F.mergeRight_mem h

theorem mergeStep_mem_entries (h : 2 ≤ b.hsize.toNat) {k : NodeIdx} :
    k ∈ (mergeStep b).entries ↔ k = b.next ∨ k ∈ b.entries ∧ k ≠ mergeLeft b ∧ k ≠ mergeRight b := by
  rw [(mergeStep_entries_perm h F.hsize_le).mem_iff, List.mem_cons, F.mem_mergeRest h]

/-- The roots after a pass are the nodes without a parent. -/
theorem mergeStep_mem_entries_iff_queued (h : 2 ≤ b.hsize.toNat) (k : NodeIdx) :
    k ∈ (mergeStep b).entries ↔ (mergeStep b).queued n (mergeStep b).next k := by
  have hlk := F.lt_next_of_mem (F.mergeLeft_mem h)
  have hrk := F.lt_next_of_mem (F.mergeRight_mem h)
  have hnew := nodeAt_mergeStep_self (F.next_lt h)
  rw [F.mergeStep_mem_entries h]
  constructor
  · rintro (rfl | ⟨hk, hl, hr⟩)
    · refine ⟨(F.lt_mergeStep_next h).2 (.inr rfl), fun p hn hp => ?_⟩
      rcases (F.lt_mergeStep_next h).1 hp with hp | rfl
      · rw [nodeAt_mergeStep_of_lt hp]
        obtain ⟨-, hl, hr, -⟩ := F.internal p hn hp
        constructor <;> bv_omega
      · rw [hnew]; constructor <;> simp only <;> bv_omega
    · obtain ⟨hlt, hno⟩ := (F.mem_entries k).1 hk
      refine ⟨(F.lt_mergeStep_next h).2 (.inl hlt), fun p hn hp => ?_⟩
      rcases (F.lt_mergeStep_next h).1 hp with hp | rfl
      · rw [nodeAt_mergeStep_of_lt hp]; exact hno p hn hp
      · rw [hnew]; exact ⟨hl.symm, hr.symm⟩
  · rintro ⟨hlt, hno⟩
    rcases (F.lt_mergeStep_next h).1 hlt with hlt | rfl
    · refine .inr ⟨(F.mem_entries k).2 ⟨hlt, fun p hn hp => ?_⟩, ?_⟩
      · rw [← nodeAt_mergeStep_of_lt hp]
        exact hno p hn ((F.lt_mergeStep_next h).2 (.inl hp))
      · obtain ⟨hl, hr⟩ := hno b.next F.le_next ((F.lt_mergeStep_next h).2 (.inr rfl))
        rw [hnew] at hl hr
        exact ⟨Ne.symm hl, Ne.symm hr⟩
    · exact .inl rfl

/-- After a pass, too, no two links lead to one node. -/
theorem mergeStep_one_parent (h : 2 ≤ b.hsize.toNat) (p q : NodeIdx) (c d : Bool) (hpn : n ≤ p.toNat)
    (hp : p < (mergeStep b).next) (hqn : n ≤ q.toNat) (hq : q < (mergeStep b).next)
    (hpq : (mergeStep b).child p c = (mergeStep b).child q d) : p = q ∧ c = d := by
  have hne := F.mergeLeft_ne_mergeRight h
  rcases (F.lt_mergeStep_next h).1 hp with hp | rfl <;> rcases (F.lt_mergeStep_next h).1 hq with hq | rfl
  · rw [child_mergeStep_of_lt hp, child_mergeStep_of_lt hq] at hpq
    exact F.one_parent p q c d hpn hp hqn hq hpq
  · rw [child_mergeStep_of_lt hp] at hpq
    exact absurd hpq (F.child_ne_of_mem (F.child_mergeStep_next_mem h d) p hpn hp c)
  · rw [child_mergeStep_of_lt hq] at hpq
    exact absurd hpq.symm (F.child_ne_of_mem (F.child_mergeStep_next_mem h c) q hqn hq d)
  · rw [F.child_mergeStep_next h, F.child_mergeStep_next h] at hpq
    refine ⟨rfl, ?_⟩
    cases c <;> cases d
    · rfl
    · exact absurd hpq hne
    · exact absurd hpq.symm hne
    · rfl

theorem mergeStep_internal (h : 2 ≤ b.hsize.toNat) (k : NodeIdx) (hn : n ≤ k.toNat) (hk : k < (mergeStep b).next) :
    ((mergeStep b).nodeAt k).isLeaf = false ∧ ((mergeStep b).nodeAt k).left < k ∧ ((mergeStep b).nodeAt k).right < k ∧
      ((mergeStep b).nodeAt k).weight = ((mergeStep b).nodeAt ((mergeStep b).nodeAt k).left).weight +
        ((mergeStep b).nodeAt ((mergeStep b).nodeAt k).right).weight := by
  rcases (F.lt_mergeStep_next h).1 hk with hk | rfl
  · obtain ⟨hleaf, hl, hr, hw⟩ := F.internal k hn hk
    rw [nodeAt_mergeStep_of_lt hk, nodeAt_mergeStep_of_lt (k := (b.nodeAt k).left) (by bv_omega),
      nodeAt_mergeStep_of_lt (k := (b.nodeAt k).right) (by bv_omega)]
    exact ⟨hleaf, hl, hr, hw⟩
  · have hl := F.lt_next_of_mem (F.mergeLeft_mem h)
    have hr := F.lt_next_of_mem (F.mergeRight_mem h)
    rw [nodeAt_mergeStep_self (F.next_lt h), nodeAt_mergeStep_of_lt hl, nodeAt_mergeStep_of_lt hr]
    exact ⟨rfl, hl, hr, rfl⟩

/-- A pass of the merge loop keeps the forest (R125). -/
theorem mergeStep (h : 2 ≤ b.hsize.toNat) : (mergeStep b).Forest n where
  n_le := F.n_le
  le_next := by
    have := F.next_lt h; have := F.le_next
    rw [mergeStep_next]; bv_omega
  next_add_hsize := by
    have := F.next_lt h; have := F.next_add_hsize
    have hnext : (b.next + 1).toNat = b.next.toNat + 1 := by bv_omega
    rw [mergeStep_next, mergeStep_hsize, hsize_pred_toNat (by omega), hnext]
    omega
  nodup := by
    rw [(mergeStep_entries_perm h F.hsize_le).nodup_iff, List.nodup_cons]
    refine ⟨fun hmem => ?_, (F.popped_nodup h).of_cons.of_cons⟩
    have := F.lt_next_of_mem ((F.mem_mergeRest h).1 hmem).1
    bv_omega
  mem_entries := F.mergeStep_mem_entries_iff_queued h
  internal := F.mergeStep_internal h
  one_parent := F.mergeStep_one_parent h

end TreeBuilder.Forest

/-! ### Weights (R125, R15) -/

/-- The weights of a list of nodes, added without wrap. -/
def TreeBuilder.weightSum (b : TreeBuilder) (ks : List NodeIdx) : Nat :=
  (ks.map fun k => (b.nodeAt k).weight.toNat).sum

theorem TreeBuilder.weightSum_cons (b : TreeBuilder) (k : NodeIdx) (ks : List NodeIdx) :
    b.weightSum (k :: ks) = (b.nodeAt k).weight.toNat + b.weightSum ks := by
  simp [TreeBuilder.weightSum]

theorem TreeBuilder.weightSum_perm (b : TreeBuilder) {ks ls : List NodeIdx} (h : ks.Perm ls) :
    b.weightSum ks = b.weightSum ls :=
  (h.map _).sum_eq

theorem TreeBuilder.weightSum_congr {a b : TreeBuilder} {ks : List NodeIdx} (h : ∀ k ∈ ks, a.nodeAt k = b.nodeAt k) :
    a.weightSum ks = b.weightSum ks := by
  unfold TreeBuilder.weightSum
  rw [List.map_congr_left fun k hk => by rw [h k hk]]

/-- An internal node's weight is the sum of its children's, without wrap (R41). -/
def TreeBuilder.weightsAdd (n : Nat) (b : TreeBuilder) : Prop :=
  ∀ k : NodeIdx, n ≤ k.toNat → k < b.next → (b.nodeAt k).weight.toNat =
    (b.nodeAt (b.nodeAt k).left).weight.toNat + (b.nodeAt (b.nodeAt k).right).weight.toNat

/-- The two popped weights are part of the roots' sum. -/
theorem TreeBuilder.Forest.weightSum_entries {n : Nat} {b : TreeBuilder} (F : b.Forest n) (h : 2 ≤ b.hsize.toNat) :
    b.weightSum b.entries = (b.nodeAt (mergeLeft b)).weight.toNat + ((b.nodeAt (mergeRight b)).weight.toNat +
      b.weightSum (mergeRest b).entries) := by
  rw [b.weightSum_perm (F.entries_perm h), TreeBuilder.weightSum_cons, TreeBuilder.weightSum_cons]

/-- While the roots' weights fit in a word, a new node's weight does not wrap. -/
theorem TreeBuilder.Forest.mergeStep_weight {n : Nat} {b : TreeBuilder} (F : b.Forest n) (h : 2 ≤ b.hsize.toNat)
    (hfit : b.weightSum b.entries < 2 ^ 32) :
    ((Machine.mergeStep b).nodeAt b.next).weight.toNat =
      (b.nodeAt (mergeLeft b)).weight.toNat + (b.nodeAt (mergeRight b)).weight.toNat := by
  rw [F.weightSum_entries h] at hfit
  rw [nodeAt_mergeStep_self (F.next_lt h)]
  exact BitVec.toNat_add_of_lt (by omega)

/-- A pass keeps the sum of the roots' weights (R125). -/
theorem TreeBuilder.Forest.mergeStep_weightSum {n : Nat} {b : TreeBuilder} (F : b.Forest n) (h : 2 ≤ b.hsize.toNat)
    (hfit : b.weightSum b.entries < 2 ^ 32) :
    (Machine.mergeStep b).weightSum (Machine.mergeStep b).entries = b.weightSum b.entries := by
  have hrest : (Machine.mergeStep b).weightSum (mergeRest b).entries = b.weightSum (mergeRest b).entries :=
    TreeBuilder.weightSum_congr fun k hk => nodeAt_mergeStep_of_lt (F.lt_next_of_mem ((F.mem_mergeRest h).1 hk).1)
  rw [TreeBuilder.weightSum_perm _ (mergeStep_entries_perm h F.hsize_le), TreeBuilder.weightSum_cons,
    F.mergeStep_weight h hfit, hrest, F.weightSum_entries h, Nat.add_assoc]

theorem TreeBuilder.Forest.mergeStep_weightsAdd {n : Nat} {b : TreeBuilder} (F : b.Forest n) (h : 2 ≤ b.hsize.toNat)
    (hfit : b.weightSum b.entries < 2 ^ 32) (hw : b.weightsAdd n) : (Machine.mergeStep b).weightsAdd n := by
  intro k hn hk
  rcases (F.lt_mergeStep_next h).1 hk with hk | rfl
  · obtain ⟨-, hl, hr, -⟩ := F.internal k hn hk
    rw [nodeAt_mergeStep_of_lt hk, nodeAt_mergeStep_of_lt (k := (b.nodeAt k).left) (by bv_omega),
      nodeAt_mergeStep_of_lt (k := (b.nodeAt k).right) (by bv_omega)]
    exact hw k hn hk
  · rw [F.mergeStep_weight h hfit, nodeAt_mergeStep_self (F.next_lt h),
      nodeAt_mergeStep_of_lt (F.lt_next_of_mem (F.mergeLeft_mem h)),
      nodeAt_mergeStep_of_lt (F.lt_next_of_mem (F.mergeRight_mem h))]

/-! ### The whole loop -/

theorem queueStore_nodeAt (freq : Sym → Count) (b : TreeBuilder) (k : NodeIdx) :
    (queueStore freq b).nodeAt k = (leafStore freq b).nodeAt k :=
  TreeBuilder.nodeAt_congr (fillHeap_node _ _) k

theorem queueStore_next_toNat (freq : Sym → Count) (b : TreeBuilder) :
    (queueStore freq b).next.toNat = (presentSyms freq allSyms).length := by
  rw [queueStore, fillHeap_next, leafStore_next_toNat]

theorem queueStore_entries_perm (freq : Sym → Count) (b : TreeBuilder) :
    (queueStore freq b).entries.Perm ((List.range (presentSyms freq allSyms).length).map (BitVec.ofNat 9)) :=
  fillHeap_entries_perm (length_presentSyms_le freq) rfl

/-- After the heap fill the forest is one of leaves alone (R124). -/
theorem queueStore_forest (freq : Sym → Count) (b : TreeBuilder) :
    (queueStore freq b).Forest (presentSyms freq allSyms).length := by
  have hle := length_presentSyms_le freq
  have hnext := queueStore_next_toNat freq b
  have hno (p : NodeIdx) (hn : (presentSyms freq allSyms).length ≤ p.toNat) : ¬ p < (queueStore freq b).next := by
    rw [BitVec.lt_def, hnext]; omega
  refine {
    n_le := hle
    le_next := hnext.ge
    next_add_hsize := by rw [hnext, queueStore_hsize_toNat]; omega
    nodup := ?_
    mem_entries := fun k => ?_
    internal := fun k hn hk => absurd hk (hno k hn)
    one_parent := fun p _ _ _ hn hp => absurd hp (hno p hn) }
  · rw [(queueStore_entries_perm freq b).nodup_iff]
    refine List.nodup_range.map_on fun i hi j hj hij => ?_
    have hi := List.mem_range.1 hi
    have hj := List.mem_range.1 hj
    rw [← toNat_nodeIdx_ofNat (n := i) (by omega), hij, toNat_nodeIdx_ofNat (by omega)]
  · rw [(queueStore_entries_perm freq b).mem_iff, List.mem_map]
    constructor
    · rintro ⟨i, hi, rfl⟩
      have hi := List.mem_range.1 hi
      refine ⟨?_, fun p hn hp => absurd hp (hno p hn)⟩
      rw [BitVec.lt_def, hnext, toNat_nodeIdx_ofNat (by omega)]
      exact hi
    · rintro ⟨hk, -⟩
      rw [BitVec.lt_def, hnext] at hk
      exact ⟨k.toNat, List.mem_range.2 hk, by simp⟩

/-- The roots after the heap fill weigh as much as all the counts. -/
theorem queueStore_weightSum (freq : Sym → Count) (b : TreeBuilder) :
    (queueStore freq b).weightSum (queueStore freq b).entries = (allSyms.map fun x => (freq x).toNat).sum := by
  have hle := length_presentSyms_le freq
  rw [TreeBuilder.weightSum_perm _ (queueStore_entries_perm freq b), TreeBuilder.weightSum, List.map_map,
    ← sum_presentSyms]
  congr 1
  refine List.ext_getElem (by simp) fun i hi hi' => ?_
  have hi : i < (presentSyms freq allSyms).length := by simpa using hi'
  have hidx : (BitVec.ofNat 9 i).toNat = i := toNat_nodeIdx_ofNat (by omega)
  obtain ⟨-, -, hw⟩ := leafStore_nodeAt freq b (BitVec.ofNat 9 i) (by omega)
  simp only [List.getElem_map, List.getElem_range, Function.comp_apply, queueStore_nodeAt, hw, hidx]

theorem one_lt_hsize {h : BitVec 9} (hlt : 1 < h) : 2 ≤ h.toNat := hlt

theorem mergedStore_forest (freq : Sym → Count) (b : TreeBuilder) :
    (mergedStore freq b).Forest (presentSyms freq allSyms).length :=
  mergeLoop_keeps (fun _ h F => F.mergeStep (one_lt_hsize h)) _ _ (queueStore_forest freq b)

/-- The merge loop leaves the leaves as they are (R125). -/
theorem mergedStore_nodeAt_of_leaf (freq : Sym → Count) (b : TreeBuilder) {k : NodeIdx}
    (hk : k.toNat < (presentSyms freq allSyms).length) :
    (mergedStore freq b).nodeAt k = (leafStore freq b).nodeAt k := by
  have hkeep := mergeLoop_keeps
    (P := fun c => c.Forest (presentSyms freq allSyms).length ∧ c.nodeAt k = (leafStore freq b).nodeAt k)
    (fun c h ⟨F, hc⟩ => ⟨F.mergeStep (one_lt_hsize h), by
      have := F.le_next
      rw [nodeAt_mergeStep_of_lt (BitVec.lt_def.2 (by omega)), hc]⟩)
  exact (hkeep _ _ ⟨queueStore_forest freq b, queueStore_nodeAt freq b k⟩).2

/-- If the counts' sum fits in a word, no weight of the tree wraps (R15, R106). -/
theorem mergedStore_weightsAdd (freq : Sym → Count) (b : TreeBuilder)
    (hfit : (allSyms.map fun x => (freq x).toNat).sum < 2 ^ 32) :
    (mergedStore freq b).weightsAdd (presentSyms freq allSyms).length := by
  have hkeep := mergeLoop_keeps
    (P := fun c => c.Forest (presentSyms freq allSyms).length ∧ c.weightSum c.entries < 2 ^ 32 ∧
      c.weightsAdd (presentSyms freq allSyms).length)
    (fun c h ⟨F, hsum, hw⟩ =>
      have h := one_lt_hsize h
      ⟨F.mergeStep h, by rwa [F.mergeStep_weightSum h hsum], F.mergeStep_weightsAdd h hsum hw⟩)
  refine (hkeep _ _ ⟨queueStore_forest freq b, by rwa [queueStore_weightSum], fun k hn hk => ?_⟩).2.2
  rw [BitVec.lt_def, queueStore_next_toNat] at hk
  omega

end Sys2Proof.Machine

/-! ## What BUILD answers is a well-formed tree (R41, R121, R122, R125, R126, R135) -/

namespace Sys2Proof.Machine

section Present

variable {freq : Sym → Count} (h : (presentSyms freq allSyms).length ≠ 0) (b : TreeBuilder)
include h

theorem buildTree_nodeAt (k : NodeIdx) : (buildTree freq b).tb.nodeAt k = (mergedStore freq b).nodeAt k := by
  rw [buildTree_of_present h]
  exact TreeBuilder.nodeAt_congr (heapPop_node _) k

theorem mergedStore_next_toNat : (mergedStore freq b).next.toNat = 2 * (presentSyms freq allSyms).length - 1 := by
  have hcount := (mergedStore_forest freq b).next_add_hsize
  rw [mergedStore_hsize h] at hcount
  change _ + 1 = _ at hcount
  omega

theorem lt_mergedStore_next {k : NodeIdx} :
    k < (mergedStore freq b).next ↔ k.toNat < 2 * (presentSyms freq allSyms).length - 1 := by
  rw [BitVec.lt_def, mergedStore_next_toNat h]

/-- The merge loop ends with the root as the one entry (R126). -/
theorem mergedStore_entries : (mergedStore freq b).entries = [(buildTree freq b).root] := by
  rw [buildTree_of_present h, heapPop_fst, TreeBuilder.entries_eq_slots, mergedStore_hsize h]
  rfl

/-- The root is the node made last (R126). -/
theorem toNat_buildTreeRoot_of_present :
    (buildTree freq b).root.toNat = 2 * (presentSyms freq allSyms).length - 2 := by
  have F := mergedStore_forest freq b
  have hn := length_presentSyms_le freq
  have hlast : (BitVec.ofNat 9 (2 * (presentSyms freq allSyms).length - 2)).toNat = _ :=
    toNat_nodeIdx_ofNat (by omega)
  have hmem : BitVec.ofNat 9 (2 * (presentSyms freq allSyms).length - 2) ∈ (mergedStore freq b).entries := by
    refine by_contra fun hroot => ?_
    obtain ⟨p, c, hpn, hp, hk⟩ := F.exists_parent ((lt_mergedStore_next h b).2 (by omega)) hroot
    have hlt := F.child_lt p hpn hp c
    rw [hk, BitVec.lt_def, hlast] at hlt
    have := (lt_mergedStore_next h b).1 hp
    omega
  rw [mergedStore_entries h, List.mem_singleton] at hmem
  rw [← hmem, hlast]

end Present

theorem toNat_buildTreeRoot (freq : Sym → Count) (b : TreeBuilder) :
    (buildTree freq b).root.toNat = 2 * (presentSyms freq allSyms).length - 2 := by
  by_cases h : (presentSyms freq allSyms).length = 0
  · rw [buildTree_of_empty h, h]; rfl
  · exact toNat_buildTreeRoot_of_present h b

theorem buildTree_next_toNat (freq : Sym → Count) (b : TreeBuilder) :
    (buildTree freq b).tb.next.toNat = 2 * (presentSyms freq allSyms).length - 1 := by
  by_cases h : (presentSyms freq allSyms).length = 0
  · rw [buildTree_of_empty h, leafStore_next_toNat, h]
  · rw [buildTree_of_present h, heapPop_next, mergedStore_next_toNat h]

theorem buildTree_nodeAt_of_leaf (freq : Sym → Count) (b : TreeBuilder) (k : NodeIdx)
    (hk : k.toNat < (presentSyms freq allSyms).length) :
    isLeafOf freq (presentSyms freq allSyms)[k.toNat] ((buildTree freq b).tb.nodeAt k) := by
  rw [buildTree_nodeAt (by omega), mergedStore_nodeAt_of_leaf freq b hk]
  exact leafStore_nodeAt freq b k hk

theorem buildModel_nsym_toNat (s : State) : s.buildModel.nsym.toNat = (presentSyms s.freqOf allSyms).length := by
  have := length_presentSyms_le s.freqOf
  rw [State.buildModel_nsym, buildTree_n, toNat_nodeIdx_ofNat (by omega)]

/-- R41: from counts whose sum TOTAL holds, BUILD makes a well-formed tree over the symbols present. -/
theorem buildModel_treeWf {s : State} (hs : s.countsAgree) : s.buildModel.TreeWf := by
  have hn := buildModel_nsym_toNat s
  have hfit : (allSyms.map fun x => (s.freqOf x).toNat).sum < 2 ^ 32 := hs ▸ s.total.isLt
  have F := mergedStore_forest s.freqOf s.tb
  constructor
  case nsym_le => exact hn ▸ length_presentSyms_le s.freqOf
  case leaf =>
    intro k hk
    rw [hn] at hk
    obtain ⟨hleaf, hsym, hw⟩ := buildTree_nodeAt_of_leaf s.freqOf s.tb k hk
    rw [State.buildModel_tb, hsym, hw]
    exact ⟨hleaf, rfl, (mem_presentSyms.1 (List.getElem_mem hk)).2⟩
  case leaf_order =>
    intro j k hjk hk
    rw [hn] at hk
    have hjk : j.toNat < k.toNat := hjk
    obtain ⟨-, hj, -⟩ := buildTree_nodeAt_of_leaf s.freqOf s.tb j (by omega)
    obtain ⟨-, hk', -⟩ := buildTree_nodeAt_of_leaf s.freqOf s.tb k hk
    rw [State.buildModel_tb, hj, hk']
    exact List.pairwise_iff_getElem.1 (presentSyms_pairwise_lt s.freqOf) _ _ _ _ hjk
  case leaf_of_present =>
    intro x hx
    have hmem : x ∈ presentSyms s.freqOf allSyms := mem_presentSyms.2 ⟨mem_allSyms x, hx⟩
    obtain ⟨i, hi, rfl⟩ := List.getElem_of_mem hmem
    have hidx : (BitVec.ofNat 9 i).toNat = i :=
      toNat_nodeIdx_ofNat (by have := length_presentSyms_le s.freqOf; omega)
    obtain ⟨-, hsym, -⟩ := buildTree_nodeAt_of_leaf s.freqOf s.tb (BitVec.ofNat 9 i) (by omega)
    refine ⟨BitVec.ofNat 9 i, by rw [hn, hidx]; exact hi, ?_⟩
    simp only [State.buildModel_tb, hsym, hidx]
  case internal =>
    intro k hnk hk
    rw [hn] at hnk hk
    have hpos : (presentSyms s.freqOf allSyms).length ≠ 0 := by omega
    have hlt := (lt_mergedStore_next hpos s.tb).2 hk
    obtain ⟨hleaf, hl, hr, -⟩ := F.internal k hnk hlt
    simp only [State.buildModel_tb, buildTree_nodeAt hpos]
    exact ⟨hleaf, hl, hr, mergedStore_weightsAdd s.freqOf s.tb hfit k hnk hlt⟩
  case one_parent =>
    intro k hk
    rw [hn] at hk ⊢
    have hpos : (presentSyms s.freqOf allSyms).length ≠ 0 := by omega
    have hroot : k ∉ (mergedStore s.freqOf s.tb).entries := by
      rw [mergedStore_entries hpos, List.mem_singleton]
      intro hkr
      rw [hkr, toNat_buildTreeRoot] at hk
      omega
    obtain ⟨p, c, hpn, hp, hpk⟩ := F.exists_parent ((lt_mergedStore_next hpos s.tb).2 (by omega)) hroot
    simp only [State.buildModel_tb, TreeBuilder.child, buildTree_nodeAt hpos]
    refine ⟨(p, c), ⟨hpn, (lt_mergedStore_next hpos s.tb).1 hp, hpk⟩, ?_⟩
    rintro ⟨q, d⟩ ⟨hqn, hq, hqk⟩
    obtain ⟨rfl, rfl⟩ := F.one_parent q p d c hqn ((lt_mergedStore_next hpos s.tb).2 hq) hpn hp (hqk.trans hpk.symm)
    rfl
  case root => rw [hn]; exact toNat_buildTreeRoot s.freqOf s.tb
  case next => rw [hn]; exact buildTree_next_toNat s.freqOf s.tb

/-! ## The tree outside BUILD -/

/-- The states agree in what `State.TreeWf` speaks of. -/
theorem State.TreeWf.congr {s t : State} (h : s.TreeWf) (hn : t.nsym = s.nsym) (hf : t.freq = s.freq) (htb : t.tb = s.tb)
    (hr : t.root = s.root) : t.TreeWf := by
  have hfreq : t.freqOf = s.freqOf := by funext x; simp only [State.freqOf, hf]
  constructor
  case nsym_le => rw [hn]; exact h.nsym_le
  case leaf => rw [hn, htb, hfreq]; exact h.leaf
  case leaf_order => rw [hn, htb]; exact h.leaf_order
  case leaf_of_present => rw [hn, htb, hfreq]; exact h.leaf_of_present
  case internal => rw [hn, htb]; exact h.internal
  case one_parent => rw [hn, htb]; exact h.one_parent
  case root => rw [hn, hr]; exact h.root
  case next => rw [hn, htb]; exact h.next

/-- The tree invariant does not look at the bus's side. -/
theorem State.treeInv.of_sameRegs {s t : State} (hst : s.sameRegs t) (h : s.treeInv) : t.treeInv := by
  obtain ⟨_, _, _, _, _, _, rfl⟩ := hst
  exact fun hp => (h hp).congr rfl rfl rfl rfl

/-- Outside TRAIN the model is frozen: only CLEAR changes it (R22, R120). -/
theorem effect_frozen {i : Instr} {s : State} (hl : legalPhase i s.phase = true) (hp : s.phase ≠ .train) (hi : i ≠ .clear) :
    (effect i s).freq = s.freq ∧ (effect i s).total = s.total ∧ (effect i s).ct = s.ct ∧ (effect i s).tb = s.tb ∧
      (effect i s).nsym = s.nsym ∧ (effect i s).root = s.root := by
  cases i with
  | clear => exact absurd rfl hi
  | trainSym x => exact absurd (by simpa [legalPhase] using hl) hp
  | build => exact absurd (by simpa [legalPhase] using hl) hp
  | getCode x | encBegin | decBegin => exact ⟨rfl, rfl, rfl, rfl, rfl, rfl⟩
  | encSym x =>
    obtain ⟨m, k, e, h, -⟩ := effect_encSym_frame x s
    rw [h]
    exact ⟨rfl, rfl, rfl, rfl, rfl, rfl⟩
  | decBit t =>
    obtain ⟨m, k, c, e, h, -⟩ := effect_decBit_frame t s
    rw [h]
    exact ⟨rfl, rfl, rfl, rfl, rfl, rfl⟩
  | encEnd | decEnd => simp [effect]

/-- Settles O25: `effect_frozen` for an accepted command; a rejected one changes CMD_ERR alone. -/
theorem builtModelIsFrozen : Obligations.BuiltModelIsFrozen := by
  intro i s t hp hi h
  rcases exec_cases h with ⟨hl, rfl⟩ | ⟨-, rfl⟩
  · exact effect_frozen hl hp hi
  · exact ⟨rfl, rfl, rfl, rfl, rfl, rfl⟩

/-- The commands of TRAIN that stay in TRAIN. -/
theorem effect_phase_of_train {i : Instr} {s : State} (hl : legalPhase i s.phase = true) (hp : s.phase = .train)
    (hi : i ≠ .build) : (effect i s).phase = .train := by
  rw [hp] at hl
  cases i with
  | clear => rfl
  | trainSym x => exact (State.countSymbol_phase s x).trans hp
  | build => exact absurd rfl hi
  | getCode _ | encBegin | encSym _ | encEnd | decBegin | decBit _ | decEnd => cases hl

/-- Settles O56: BUILD makes the tree (`buildModel_treeWf`), and outside TRAIN nothing but CLEAR, which goes back to TRAIN,
changes it. -/
theorem stepKeepsTheTree : Obligations.StepKeepsTheTree := by
  intro s t hsum htree h hp
  rcases step_effect_cases h with hst | ⟨a, rest, -, rfl⟩ | ⟨w, old, i, -, -, hl, rfl⟩
  · exact htree.of_sameRegs hst hp
  · exact absurd rfl hp
  · by_cases hb : i = .build
    · subst hb
      exact buildModel_treeWf (s := s.release.accepted) hsum
    · have hps : s.phase ≠ .train := fun hps => hp (effect_phase_of_train (s := s.release.accepted) hl hps hb)
      have hc : i ≠ .clear := fun hc => hp (by rw [hc]; rfl)
      obtain ⟨hf, -, -, htb, hn, hr⟩ := effect_frozen (s := s.release.accepted) hl hps hc
      exact (htree hps).congr hn hf htb hr

end Sys2Proof.Machine

/-! ## BUILD does not see the unspecified elements (R45, R138)

Two stores are alike below `m` when a run of the heap and merge operations cannot tell them apart: the same heap entries, all of
them below `m`, and nodes below `m` that agree. -/

namespace Sys2Proof.Machine

/-- The stores are alike below `m`. -/
structure TreeBuilder.Alike (m : Nat) (a b : TreeBuilder) : Prop where
  hsize : b.hsize = a.hsize
  hsize_le : a.hsize.toNat ≤ 256
  next : b.next = a.next
  heap : ∀ i < a.hsize.toNat, b.heapAt i = a.heapAt i
  heap_lt : ∀ i < a.hsize.toNat, (a.heapAt i).toNat < m
  node : ∀ k : NodeIdx, k.toNat < m → Node.agrees (a.nodeAt k) (b.nodeAt k)

/-- `less` reads weights only (R123). -/
theorem TreeBuilder.less_congr {a b : TreeBuilder} {x y : NodeIdx} (hx : (b.nodeAt x).weight = (a.nodeAt x).weight)
    (hy : (b.nodeAt y).weight = (a.nodeAt y).weight) : b.less x y = a.less x y := by
  simp only [TreeBuilder.less, hx, hy]

theorem one_le_heapPop_hsize {b : TreeBuilder} (h : 2 ≤ b.hsize.toNat) : 1 ≤ (heapPop b).2.hsize.toNat := by
  rw [heapPop_hsize, hsize_pred_toNat (by omega)]
  omega

namespace TreeBuilder.Alike

variable {m : Nat} {a b : TreeBuilder}

theorem less_heapAt (A : Alike m a b) {i j : Nat} (hi : i < a.hsize.toNat) (hj : j < a.hsize.toNat) :
    b.less (b.heapAt i) (b.heapAt j) = a.less (a.heapAt i) (a.heapAt j) := by
  obtain ⟨-, hwi, -⟩ := A.node _ (A.heap_lt i hi)
  obtain ⟨-, hwj, -⟩ := A.node _ (A.heap_lt j hj)
  rw [A.heap i hi, A.heap j hj]
  exact TreeBuilder.less_congr hwi.symm hwj.symm

theorem swapHeap (A : Alike m a b) {i j : Nat} (hi : i < a.hsize.toNat) (hj : j < a.hsize.toNat) :
    Alike m (a.swapHeap i j) (b.swapHeap i j) := by
  have hle := A.hsize_le
  have ha (k : Nat) := a.heapAt_swapHeap (i := i) (j := j) (by omega) (by omega) k
  have hb (k : Nat) := b.heapAt_swapHeap (i := i) (j := j) (by omega) (by omega) k
  exact {
    hsize := A.hsize
    hsize_le := A.hsize_le
    next := A.next
    heap := fun k hk => by rw [ha, hb]; exact A.heap _ (swap_lt hi hj hk)
    heap_lt := fun k hk => by rw [ha]; exact A.heap_lt _ (swap_lt hi hj hk)
    node := A.node }

theorem siftUp (fuel : Nat) {i : Nat} (A : Alike m a b) (hi : i < a.hsize.toNat) :
    Alike m (siftUp fuel i a) (siftUp fuel i b) := by
  induction fuel generalizing i a b with
  | zero => exact A
  | succ n ih =>
    have hp : (i - 1) / 2 < a.hsize.toNat := by omega
    simp only [Machine.siftUp, A.less_heapAt hi hp]
    split
    · exact A
    · split
      · exact ih (A.swapHeap hi hp) hp
      · exact A

theorem leastChild_eq (A : Alike m a b) {i : Nat} (hi : i < a.hsize.toNat) : leastChild b i = leastChild a i := by
  have hl : (2 * i + 1 < b.hsize.toNat ∧ b.less (b.heapAt (2 * i + 1)) (b.heapAt i) = true) ↔
      (2 * i + 1 < a.hsize.toNat ∧ a.less (a.heapAt (2 * i + 1)) (a.heapAt i) = true) := by
    rw [A.hsize]
    exact and_congr_right fun h => by rw [A.less_heapAt h hi]
  have hr (c : Nat) (hc : c < a.hsize.toNat) :
      (2 * i + 2 < b.hsize.toNat ∧ b.less (b.heapAt (2 * i + 2)) (b.heapAt c) = true) ↔
        (2 * i + 2 < a.hsize.toNat ∧ a.less (a.heapAt (2 * i + 2)) (a.heapAt c) = true) := by
    rw [A.hsize]
    exact and_congr_right fun h => by rw [A.less_heapAt h hc]
  simp only [leastChild, hl]
  split
  · next h => simp only [hr _ h.1]
  · simp only [hr _ hi]

theorem siftDown (fuel : Nat) {i : Nat} (A : Alike m a b) (hi : i < a.hsize.toNat) :
    Alike m (siftDown fuel i a) (siftDown fuel i b) := by
  induction fuel generalizing i a b with
  | zero => exact A
  | succ n ih =>
    simp only [Machine.siftDown, A.leastChild_eq hi]
    split
    · exact A
    · exact ih (A.swapHeap hi (leastChild_lt hi)) (leastChild_lt hi)

/-- Stores alike but for one more heap entry, the same in both, are alike with it. -/
theorem heapPush {x : NodeIdx} (A : Alike m a b) (hlt : a.hsize.toNat < 256) (hx : x.toNat < m) :
    Alike m (heapPush x a) (heapPush x b) := by
  have hsucc : (a.hsize + 1).toNat = a.hsize.toNat + 1 := hsize_succ_toNat (by omega)
  have hself (c : TreeBuilder) := c.heapAt_setHeap_self hlt x
  have hne (c : TreeBuilder) {k : Nat} (hk : k < a.hsize.toNat) : (c.setHeap a.hsize.toNat x).heapAt k = c.heapAt k :=
    c.heapAt_setHeap_of_ne (by omega) x
  rw [Machine.heapPush, Machine.heapPush, A.hsize]
  refine siftUp _ ?_ (by rw [hsucc]; omega)
  have hcases {k : Nat} (hk : k < (a.hsize + 1).toNat) : k < a.hsize.toNat ∨ k = a.hsize.toNat := by omega
  refine { hsize := rfl, hsize_le := by rw [hsucc]; omega, next := A.next, heap := ?_, heap_lt := ?_, node := A.node }
  · intro k hk
    change (b.setHeap a.hsize.toNat x).heapAt k = (a.setHeap a.hsize.toNat x).heapAt k
    rcases hcases hk with hk | rfl
    · rw [hne a hk, hne b hk, A.heap k hk]
    · rw [hself a, hself b]
  · intro k hk
    change ((a.setHeap a.hsize.toNat x).heapAt k).toNat < m
    rcases hcases hk with hk | rfl
    · rw [hne a hk]; exact A.heap_lt k hk
    · rw [hself a]; exact hx

theorem heapPop_fst_eq (A : Alike m a b) (h : 1 ≤ a.hsize.toNat) : (heapPop b).1 = (heapPop a).1 := by
  rw [heapPop_fst, heapPop_fst, A.heap 0 h]

theorem lastToFront (A : Alike m a b) (h : 1 ≤ a.hsize.toNat) : Alike m a.lastToFront b.lastToFront := by
  have hpred := hsize_pred_toNat h
  have hle := A.hsize_le
  refine { hsize := ?_, hsize_le := ?_, next := A.next, heap := ?_, heap_lt := ?_, node := A.node }
  · rw [lastToFront_hsize, lastToFront_hsize, A.hsize]
  · rw [lastToFront_hsize]; omega
  · intro k hk
    rw [lastToFront_hsize] at hk
    rcases Nat.eq_zero_or_pos k with rfl | hpos
    · rw [heapAt_lastToFront_zero, heapAt_lastToFront_zero, A.hsize, A.heap _ (by omega)]
    · rw [heapAt_lastToFront_of_pos _ hpos, heapAt_lastToFront_of_pos _ hpos, A.heap _ (by omega)]
  · intro k hk
    rw [lastToFront_hsize] at hk
    rcases Nat.eq_zero_or_pos k with rfl | hpos
    · rw [heapAt_lastToFront_zero]; exact A.heap_lt _ (by omega)
    · rw [heapAt_lastToFront_of_pos _ hpos]; exact A.heap_lt _ (by omega)

theorem heapPop (A : Alike m a b) (h : 1 ≤ a.hsize.toNat) : Alike m (heapPop a).2 (heapPop b).2 := by
  have hpred := hsize_pred_toNat h
  have hle := A.hsize_le
  by_cases hlast : a.hsize - 1 = 0
  · rw [heapPop_snd_of_last hlast, heapPop_snd_of_last (A.hsize ▸ hlast), A.hsize]
    have hlt {k : Nat} (hk : k < (a.hsize - 1).toNat) : k < a.hsize.toNat := by omega
    exact {
      hsize := rfl
      hsize_le := by change (a.hsize - 1).toNat ≤ 256; omega
      next := A.next
      heap := fun k hk => A.heap k (hlt hk)
      heap_lt := fun k hk => A.heap_lt k (hlt hk)
      node := A.node }
  · rw [heapPop_snd_of_more hlast, heapPop_snd_of_more (A.hsize ▸ hlast), A.hsize]
    refine (A.lastToFront h).siftDown _ ?_
    have : (a.hsize - 1).toNat ≠ 0 := fun h0 => hlast (BitVec.eq_of_toNat_eq h0)
    rw [lastToFront_hsize]
    omega

theorem setNext (A : Alike m a b) (x : NodeIdx) : Alike m { a with next := x } { b with next := x } where
  hsize := A.hsize
  hsize_le := A.hsize_le
  next := rfl
  heap := A.heap
  heap_lt := A.heap_lt
  node := A.node

/-- Stores alike below `m` that get the same internal node at `m` are alike below `m + 1`. -/
theorem writeInternal (A : Alike m a b) {i : NodeIdx} (hi : i.toNat = m) (hm : m < 511) (w : Count) (l r : NodeIdx) :
    Alike (m + 1) (a.writeInternal i w l r) (b.writeInternal i w l r) where
  hsize := A.hsize
  hsize_le := A.hsize_le
  next := A.next
  heap := A.heap
  heap_lt := fun k hk => Nat.lt_succ_of_lt (A.heap_lt k hk)
  node := fun k hk => by
    unfold TreeBuilder.writeInternal
    by_cases hki : k = i
    · rw [hki, nodeAt_setNode_self _ (by omega), nodeAt_setNode_self _ (by omega)]
      exact ⟨rfl, rfl, rfl, rfl⟩
    · rw [nodeAt_setNode_of_ne _ hki, nodeAt_setNode_of_ne _ hki]
      have : k.toNat ≠ i.toNat := fun e => hki (BitVec.eq_of_toNat_eq e)
      exact A.node k (by omega)

section Pass

variable (A : Alike m a b) (h : 2 ≤ a.hsize.toNat)
include A h

theorem mergeLeft_eq : mergeLeft b = mergeLeft a := A.heapPop_fst_eq (by omega)

theorem mergeRight_eq : mergeRight b = mergeRight a := (A.heapPop (by omega)).heapPop_fst_eq (one_le_heapPop_hsize h)

theorem mergeRest : Alike m (mergeRest a) (mergeRest b) := (A.heapPop (by omega)).heapPop (one_le_heapPop_hsize h)

theorem mergeLeft_lt : (mergeLeft a).toNat < m := by
  rw [mergeLeft, heapPop_fst]
  exact A.heap_lt 0 (by omega)

theorem mergeRight_lt : (mergeRight a).toNat < m := by
  rw [mergeRight, heapPop_fst]
  exact (A.heapPop (by omega)).heap_lt 0 (one_le_heapPop_hsize h)

theorem mergeWritten (hm : a.next.toNat = m) (hlt : m < 511) : Alike (m + 1) (mergeWritten a) (mergeWritten b) := by
  obtain ⟨-, hwl, -⟩ := A.node _ (A.mergeLeft_lt h)
  obtain ⟨-, hwr, -⟩ := A.node _ (A.mergeRight_lt h)
  unfold Machine.mergeWritten
  rw [A.mergeLeft_eq h, A.mergeRight_eq h, A.next, ← hwl, ← hwr]
  exact (A.mergeRest h).writeInternal hm hlt _ _ _

/-- A pass of the merge loop keeps stores alike, one more node of them (R125). -/
theorem mergeStep (hm : a.next.toNat = m) (hlt : m < 511) : Alike (m + 1) (mergeStep a) (mergeStep b) := by
  have hsize : (Machine.mergeWritten a).hsize.toNat < 256 := by
    have := A.hsize_le
    change (Machine.mergeRest a).hsize.toNat < 256
    rw [mergeRest_hsize]
    bv_omega
  rw [mergeStep_eq, mergeStep_eq, A.next]
  exact ((A.mergeWritten h hm hlt).heapPush hsize (by omega)).setNext _

end Pass

theorem fillHeap (A : Alike m a b) (hm : m ≤ 256) (h0 : a.hsize = 0) (n : Nat) (hn : n ≤ m) :
    Alike m (fillHeap n a) (fillHeap n b) := by
  induction n with
  | zero => exact A
  | succ n ih =>
    rw [fillHeap_succ, fillHeap_succ]
    refine (ih (by omega)).heapPush ?_ ?_
    · rw [fillHeap_hsize_toNat (by omega) h0]; omega
    · rw [toNat_nodeIdx_ofNat (by omega)]; omega

theorem mergeLoop {n : Nat} (fuel : Nat) (F : a.Forest n) (A : Alike a.next.toNat a b) :
    Alike (mergeLoop fuel a).next.toNat (mergeLoop fuel a) (mergeLoop fuel b) := by
  induction fuel generalizing a b with
  | zero => exact A
  | succ k ih =>
    simp only [Machine.mergeLoop, A.hsize]
    split
    · next h =>
      have h := one_lt_hsize h
      have hlt := F.next_lt h
      have hnext : (Machine.mergeStep a).next.toNat = a.next.toNat + 1 := by rw [mergeStep_next]; bv_omega
      exact ih (F.mergeStep h) (hnext ▸ A.mergeStep h rfl hlt)
    · exact A

end TreeBuilder.Alike

theorem agrees_of_isLeafOf {freq : Sym → Count} {x : Sym} {c d : Node} (hc : isLeafOf freq x c) (hd : isLeafOf freq x d) :
    Node.agrees c d := by
  obtain ⟨hcl, hcs, hcw⟩ := hc
  obtain ⟨hdl, hds, hdw⟩ := hd
  refine ⟨hcl.trans hdl.symm, hcw.trans hdw.symm, ?_⟩
  rw [if_pos hcl]
  exact hcs.trans hds.symm

/-- After leaf creation two stores are alike, whatever they held before (R121). -/
theorem leafStore_alike (freq : Sym → Count) (a b : TreeBuilder) :
    TreeBuilder.Alike (presentSyms freq allSyms).length (leafStore freq a) (leafStore freq b) where
  hsize := rfl
  hsize_le := Nat.zero_le _
  next := rfl
  heap := fun i hi => absurd hi (Nat.not_lt_zero i)
  heap_lt := fun i hi => absurd hi (Nat.not_lt_zero i)
  node := fun k hk => agrees_of_isLeafOf (leafStore_nodeAt freq a k hk) (leafStore_nodeAt freq b k hk)

theorem mergedStore_alike (freq : Sym → Count) (a b : TreeBuilder) :
    TreeBuilder.Alike (mergedStore freq a).next.toNat (mergedStore freq a) (mergedStore freq b) := by
  refine TreeBuilder.Alike.mergeLoop _ (queueStore_forest freq a) ?_
  rw [queueStore_next_toNat]
  exact (leafStore_alike freq a b).fillHeap (length_presentSyms_le freq) rfl _ (Nat.le_refl _)

/-! ### What BUILD answers -/

theorem buildTree_n_eq (freq : Sym → Count) (a b : TreeBuilder) : (buildTree freq b).n = (buildTree freq a).n := by
  rw [buildTree_n, buildTree_n]

theorem buildTreeRoot_eq (freq : Sym → Count) (a b : TreeBuilder) : (buildTree freq b).root = (buildTree freq a).root :=
  BitVec.eq_of_toNat_eq (by rw [toNat_buildTreeRoot, toNat_buildTreeRoot])

theorem buildTree_next_eq (freq : Sym → Count) (a b : TreeBuilder) :
    (buildTree freq b).tb.next = (buildTree freq a).tb.next :=
  BitVec.eq_of_toNat_eq (by rw [buildTree_next_toNat, buildTree_next_toNat])

/-- Two BUILDs from the same counts make trees that agree (R138). -/
theorem buildTree_agrees (freq : Sym → Count) (a b : TreeBuilder) :
    TreeBuilder.agrees (buildTree freq a).n (buildTree freq a).tb (buildTree freq b).tb := by
  intro k hk
  rw [buildTree_n] at hk
  have hpos : (presentSyms freq allSyms).length ≠ 0 := by omega
  rw [buildTree_nodeAt hpos, buildTree_nodeAt hpos]
  exact (mergedStore_alike freq a b).node k (by rwa [mergedStore_next_toNat hpos])

/-- The walk reads no node outside the tree and no field its kind does not use (R130). -/
theorem walk_congr {m : Nat} {a b : TreeBuilder} (hab : ∀ k : NodeIdx, k.toNat < m → Node.agrees (a.nodeAt k) (b.nodeAt k))
    (hclosed : ∀ k : NodeIdx, k.toNat < m → (a.nodeAt k).isLeaf = false →
      (a.nodeAt k).left.toNat < m ∧ (a.nodeAt k).right.toNat < m)
    (fuel : Nat) (x : NodeIdx) (l : Nat) (bits : CodeBits) (t : CodeTable) (hx : x.toNat < m) :
    walk b fuel x l bits t = walk a fuel x l bits t := by
  induction fuel generalizing x l bits t with
  | zero => rfl
  | succ n ih =>
    obtain ⟨hleaf, -, hfields⟩ := hab x hx
    simp only [walk, ← hleaf]
    split
    · next h => rw [if_pos h] at hfields; rw [hfields]
    · next h =>
      rw [if_neg h] at hfields
      obtain ⟨hl, hr⟩ := hclosed x hx (by simpa using h)
      rw [← hfields.1, ← hfields.2, ih _ _ _ _ hl, ih _ _ _ _ hr]

/-- A tree's internal nodes have their children in the tree (R41). -/
theorem buildTree_closed (freq : Sym → Count) (b : TreeBuilder) (k : NodeIdx)
    (hk : k.toNat < 2 * (buildTree freq b).n - 1) (hleaf : ((buildTree freq b).tb.nodeAt k).isLeaf = false) :
    ((buildTree freq b).tb.nodeAt k).left.toNat < 2 * (buildTree freq b).n - 1 ∧
      ((buildTree freq b).tb.nodeAt k).right.toNat < 2 * (buildTree freq b).n - 1 := by
  rw [buildTree_n] at hk ⊢
  have hpos : (presentSyms freq allSyms).length ≠ 0 := by omega
  have hn : (presentSyms freq allSyms).length ≤ k.toNat := by
    refine Nat.le_of_not_lt fun hlt => ?_
    obtain ⟨hl, -, -⟩ := buildTree_nodeAt_of_leaf freq b k hlt
    rw [hl] at hleaf
    cases hleaf
  obtain ⟨-, hl, hr, -⟩ := (mergedStore_forest freq b).internal k hn ((lt_mergedStore_next hpos b).2 hk)
  rw [buildTree_nodeAt hpos]
  rw [BitVec.lt_def] at hl hr
  omega

/-- Two BUILDs from the same counts derive the same code table (R138). -/
theorem deriveCodes_eq (freq : Sym → Count) (a b : TreeBuilder) :
    deriveCodes (buildTree freq b) = deriveCodes (buildTree freq a) := by
  have hab := buildTree_agrees freq a b
  simp only [deriveCodes, buildTree_n_eq freq a b, buildTreeRoot_eq freq a b]
  split
  · rfl
  · split
    · next h =>
      obtain ⟨-, -, hsym⟩ := hab 0 (by rw [h]; decide)
      have hleaf := buildTree_nodeAt_of_leaf freq a 0 (by rw [← buildTree_n freq a, h]; decide)
      rw [if_pos hleaf.1] at hsym
      rw [singleLeafCode, singleLeafCode, hsym]
    · next h0 h1 =>
      refine walk_congr hab (buildTree_closed freq a) _ _ _ _ _ ?_
      rw [toNat_buildTreeRoot, buildTree_n]
      rw [buildTree_n] at h0
      omega

end Sys2Proof.Machine

/-! ## States that agree (R45) -/

namespace Sys2Proof.Machine

/-! ### OUTBUF under the data commands (R153, R154) -/

theorem shiftOut_succ (m : Memory) (k : Nat) (bits : CodeBits) (l : Nat) :
    shiftOut m k bits (l + 1) = (shiftOut m k bits l).write (k + l) (bitToken (bits.getLsbD l)) := by
  simp [shiftOut, List.range_succ]

theorem Memory.wf_shiftOut {m : Memory} (hm : m.wf = true) (k : Nat) (bits : CodeBits) (l : Nat) :
    (shiftOut m k bits l).wf = true := by
  induction l with
  | zero => exact hm
  | succ l ih => rw [shiftOut_succ]; exact Memory.wf_write ih _ _

theorem Memory.inCap_shiftOut {m : Memory} (hm : m.inCap = true) {k l : Nat} (h : k + l ≤ Config.outCap) (bits : CodeBits) :
    (shiftOut m k bits l).inCap = true := by
  induction l with
  | zero => exact hm
  | succ l ih => rw [shiftOut_succ]; exact Memory.inCap_write (ih (by omega)) (by omega) _

theorem Memory.read_shiftOut_of_outside {m : Memory} (hm : m.wf = true) {k l i : Nat} (h : ¬ (k ≤ i ∧ i < k + l))
    (bits : CodeBits) : (shiftOut m k bits l).read i = m.read i := by
  induction l with
  | zero => rfl
  | succ l ih =>
    rw [shiftOut_succ, Memory.read_write_of_ne (Memory.wf_shiftOut hm k bits l) (by omega), ih (by omega)]

theorem Memory.read_shiftOut_of_inside {m : Memory} (hm : m.wf = true) {k l i : Nat} (h1 : k ≤ i) (h2 : i < k + l)
    (bits : CodeBits) : (shiftOut m k bits l).read i = bitToken (bits.getLsbD (i - k)) := by
  induction l with
  | zero => omega
  | succ l ih =>
    rw [shiftOut_succ]
    by_cases hi : i = k + l
    · rw [hi, Memory.read_write_self (Memory.wf_shiftOut hm k bits l), Nat.add_sub_cancel_left]
    · rw [Memory.read_write_of_ne (Memory.wf_shiftOut hm k bits l) hi, ih (by omega)]

theorem State.appendCode_of_unknown {x : Sym} {s : State} (h : (s.ct.lenOf x).toNat = 0) :
    s.appendCode x = .error .unknownSymbol := by
  rcases s.appendCode_cases x with ⟨-, ha⟩ | ⟨hne, -, -⟩ | ⟨hne, -, -⟩
  · exact ha
  · exact absurd h hne
  · exact absurd h hne

theorem State.appendCode_of_full {x : Sym} {s : State} (h : (s.ct.lenOf x).toNat ≠ 0)
    (hfull : Config.outCap < s.workLen.toNat + (s.ct.lenOf x).toNat) : s.appendCode x = .error .outputOverflow := by
  rcases s.appendCode_cases x with ⟨h0, -⟩ | ⟨-, -, ha⟩ | ⟨-, hfit, -⟩
  · exact absurd h0 h
  · exact ha
  · omega

theorem State.appendCode_of_fits {x : Sym} {s : State} (h : (s.ct.lenOf x).toNat ≠ 0)
    (hfit : s.workLen.toNat + (s.ct.lenOf x).toNat ≤ Config.outCap) :
    s.appendCode x = .ok { s with
      outbuf := shiftOut s.outbuf s.workLen.toNat (s.ct.bitsOf x) (s.ct.lenOf x).toNat
      workLen := s.workLen + BitVec.ofNat 17 (s.ct.lenOf x).toNat } := by
  rcases s.appendCode_cases x with ⟨h0, -⟩ | ⟨-, hfull, -⟩ | ⟨-, -, ha⟩
  · exact absurd h0 h
  · omega
  · exact ha

theorem State.emit_of_full {v : Byte} {s : State} (h : Config.outCap ≤ s.workLen.toNat) :
    s.emit v = .error .outputOverflow := by
  rcases s.emit_cases v with ⟨-, he⟩ | ⟨hlt, -⟩
  · exact he
  · omega

theorem State.emit_of_lt {v : Byte} {s : State} (h : s.workLen.toNat < Config.outCap) :
    s.emit v = .ok { s with outbuf := s.outbuf.write s.workLen.toNat v, workLen := s.workLen + 1 } := by
  rcases s.emit_cases v with ⟨hge, -⟩ | ⟨-, he⟩
  · omega
  · exact he

/-- WORK_LEN does not wrap while it stays within OUT_CAP (R37). -/
theorem workLen_add_toNat {w : Len} {l : Nat} (h : w.toNat + l ≤ Config.outCap) :
    (w + BitVec.ofNat 17 l).toNat = w.toNat + l := by
  have h : w.toNat + l ≤ 65536 := h
  rw [BitVec.toNat_add, BitVec.toNat_ofNat]
  omega

/-! ### What agreeing states share -/

/-- The form in which the proofs below take two agreeing states: the second is the first over another store and another
OUTBUF. -/
theorem State.agrees_iff {s u : State} : s.agrees u ↔ ∃ tb m, u = { s with tb := tb, outbuf := m } ∧
    tb.hsize = s.tb.hsize ∧ tb.next = s.tb.next ∧
    (∀ i, i < max s.workLen.toNat s.outLen.toNat → m.read i = s.outbuf.read i) ∧
    (s.phase ≠ .train → TreeBuilder.agrees s.nsym.toNat s.tb tb) := by
  constructor
  · rintro ⟨hu, h⟩
    exact ⟨_, _, hu, h⟩
  · rintro ⟨tb, m, rfl, h⟩
    exact ⟨rfl, h⟩

/-- No register shows an unspecified element (R45, R67). -/
theorem State.agrees.memRead_eq {s u : State} (h : s.agrees u) (off : Offset) : memRead s off = memRead u off := by
  obtain ⟨tb, m, rfl, -, -, hm, -⟩ := State.agrees_iff.1 h
  have hbyte (i : Nat) : State.outByte { s with tb := tb, outbuf := m } i = s.outByte i := by
    simp only [State.outByte]
    by_cases hi : i < s.outLen.toNat
    · rw [if_pos hi, if_pos hi, hm i (lt_max_of_lt_right hi)]
    · rw [if_neg hi, if_neg hi]
  have hword (j : Nat) : State.outWord { s with tb := tb, outbuf := m } j = s.outWord j := by
    simp only [State.outWord, hbyte]
  simp only [memRead, hword]
  rfl

theorem State.agrees.setActivity {s u : State} (h : s.agrees u) (a : Activity) :
    State.agrees { s with activity := a } { u with activity := a } := by
  obtain ⟨tb, m, rfl, h'⟩ := State.agrees_iff.1 h
  exact ⟨rfl, h'⟩

theorem State.agrees.setHost {s u : State} (h : s.agrees u) (host : List HostAction) (log : List Word) :
    State.agrees { s with host := host, readLog := log } { u with host := host, readLog := log } := by
  obtain ⟨tb, m, rfl, h'⟩ := State.agrees_iff.1 h
  exact ⟨rfl, h'⟩

theorem State.agrees.setCursor {s u : State} (h : s.agrees u) (c : NodeIdx) :
    State.agrees { s with cursor := c } { u with cursor := c } := by
  obtain ⟨tb, m, rfl, h'⟩ := State.agrees_iff.1 h
  exact ⟨rfl, h'⟩

/-- From READY, ENC and DEC any phase can be entered: the trees agree already. -/
theorem State.agrees.enter {s u : State} (h : s.agrees u) (hp : s.phase ≠ .train) (p : Phase) :
    State.agrees { s with phase := p } { u with phase := p } := by
  obtain ⟨tb, m, rfl, hh, hn, hm, htree⟩ := State.agrees_iff.1 h
  exact ⟨rfl, hh, hn, hm, fun _ => htree hp⟩

section Shared

variable {s u : State} (h : s.agrees u)
include h

theorem State.agrees.activity_eq : u.activity = s.activity := by obtain ⟨tb, m, rfl, -⟩ := State.agrees_iff.1 h; rfl
theorem State.agrees.busy_eq : u.busy = s.busy := by obtain ⟨tb, m, rfl, -⟩ := State.agrees_iff.1 h; rfl
theorem State.agrees.host_eq : u.host = s.host := by obtain ⟨tb, m, rfl, -⟩ := State.agrees_iff.1 h; rfl
theorem State.agrees.readLog_eq : u.readLog = s.readLog := by obtain ⟨tb, m, rfl, -⟩ := State.agrees_iff.1 h; rfl
theorem State.agrees.phase_eq : u.phase = s.phase := by obtain ⟨tb, m, rfl, -⟩ := State.agrees_iff.1 h; rfl
theorem State.agrees.txnErr_eq : u.txnErr = s.txnErr := by obtain ⟨tb, m, rfl, -⟩ := State.agrees_iff.1 h; rfl
theorem State.agrees.nsym_eq : u.nsym = s.nsym := by obtain ⟨tb, m, rfl, -⟩ := State.agrees_iff.1 h; rfl
theorem State.agrees.root_eq : u.root = s.root := by obtain ⟨tb, m, rfl, -⟩ := State.agrees_iff.1 h; rfl

end Shared

theorem State.agrees.accepted {s u : State} (h : s.agrees u) : s.accepted.agrees u.accepted := by
  obtain ⟨tb, m, rfl, h'⟩ := State.agrees_iff.1 h
  exact ⟨rfl, h'⟩

theorem State.agrees.release {s u : State} (h : s.agrees u) : s.release.agrees u.release := by
  obtain ⟨tb, m, rfl, h'⟩ := State.agrees_iff.1 h
  exact ⟨rfl, h'⟩

theorem State.agrees.raiseCmdError {s u : State} (h : s.agrees u) (e : CmdErr) :
    (s.raiseCmdError e).agrees (u.raiseCmdError e) := by
  obtain ⟨tb, m, rfl, h'⟩ := State.agrees_iff.1 h
  exact ⟨rfl, h'⟩

theorem State.agrees.raiseTxnError {s u : State} (h : s.agrees u) (e : TxnErr) :
    (s.raiseTxnError e).agrees (u.raiseTxnError e) := by
  obtain ⟨tb, m, rfl, h'⟩ := State.agrees_iff.1 h
  exact ⟨rfl, h'⟩

theorem State.agrees.hardReset {s u : State} (h : s.agrees u) : (State.hardReset s).agrees (State.hardReset u) := by
  obtain ⟨tb, m, rfl, -⟩ := State.agrees_iff.1 h
  exact ⟨rfl, rfl, rfl, fun _ _ => rfl, fun hp => absurd rfl hp⟩

theorem State.agrees.memWrite {s u : State} (h : s.agrees u) (off : Offset) (v : Word) :
    (memWrite s off v).agrees (memWrite u off v) := by
  obtain ⟨tb, m, rfl, h'⟩ := State.agrees_iff.1 h
  have hb : State.busy { s with tb := tb, outbuf := m } = s.busy := rfl
  unfold Machine.memWrite
  rw [hb]
  split
  · split
    · exact ⟨rfl, h'⟩
    · exact ⟨rfl, h'⟩
  · exact ⟨rfl, h'⟩

/-- The host gets the same words from both, and its actions do the same to both (R71). -/
theorem State.agrees.serveHost {s u : State} (h : s.agrees u) : (serveHost s).agrees (serveHost u) := by
  have hlog := h.readLog_eq
  cases hs : s.host with
  | nil =>
    rw [serveHost_nil hs, serveHost_nil (h.host_eq.trans hs)]
    exact h
  | cons a rest =>
    have hu := h.host_eq.trans hs
    have hrest : State.agrees { s with host := rest } { u with host := rest } := hlog ▸ h.setHost rest s.readLog
    cases a with
    | read off =>
      rw [serveHost_read hs, serveHost_read hu, hlog, ← h.memRead_eq off]
      exact h.setHost _ _
    | write off v =>
      rw [serveHost_write hs, serveHost_write hu]
      exact hrest.memWrite off v
    | wait =>
      rw [serveHost_wait hs, serveHost_wait hu, h.busy_eq]
      split
      · exact h
      · exact hrest
    | readout =>
      rw [serveHost_readout hs, serveHost_readout hu, hlog]
      exact h.setHost _ _
    | rst =>
      rw [serveHost_rst hs, serveHost_rst hu]
      exact hrest.hardReset

/-! ### The commands -/

theorem State.agrees.clearModel {s u : State} (h : s.agrees u) : s.clearModel.agrees u.clearModel := by
  obtain ⟨tb, m, rfl, -⟩ := State.agrees_iff.1 h
  exact ⟨rfl, rfl, rfl, fun i hi => absurd hi (Nat.not_lt_zero i), fun hp => absurd rfl hp⟩

theorem State.agrees.countSymbol {s u : State} (h : s.agrees u) (x : Sym) :
    (s.countSymbol x).agrees (u.countSymbol x) := by
  obtain ⟨tb, m, rfl, h'⟩ := State.agrees_iff.1 h
  simp only [State.countSymbol]
  split
  · exact ⟨rfl, h'⟩
  · exact ⟨rfl, h'⟩

/-- BUILD from the same counts over different stores (R138). -/
theorem State.agrees.buildModel {s u : State} (h : s.agrees u) : s.buildModel.agrees u.buildModel := by
  obtain ⟨tb, m, rfl, -, -, hm, -⟩ := State.agrees_iff.1 h
  have hn : (s.buildModel.nsym).toNat = (buildTree s.freqOf s.tb).n := by rw [buildModel_nsym_toNat, buildTree_n]
  have hfreq : State.freqOf { s with tb := tb, outbuf := m } = s.freqOf := rfl
  refine ⟨?_, ?_, ?_, hm, fun _ => ?_⟩
  · simp only [State.buildModel, hfreq, deriveCodes_eq s.freqOf s.tb tb, buildTree_n_eq s.freqOf s.tb tb,
      buildTreeRoot_eq s.freqOf s.tb tb]
  · simp only [State.buildModel_tb, buildTree_hsize]
  · simp only [State.buildModel_tb, hfreq]
    exact buildTree_next_eq s.freqOf s.tb tb
  · rw [hn]
    exact buildTree_agrees s.freqOf s.tb tb

theorem State.agrees.lookUp {s u : State} (h : s.agrees u) (x : Sym) : (s.lookUp x).agrees (u.lookUp x) := by
  obtain ⟨tb, m, rfl, h'⟩ := State.agrees_iff.1 h
  exact ⟨rfl, h'⟩

/-- A transaction starts with nothing committed, so nothing of OUTBUF is seen. -/
theorem State.agrees.beginTxn {s u : State} (h : s.agrees u) : s.beginTxn.agrees u.beginTxn := by
  obtain ⟨tb, m, rfl, hh, hn, -, htree⟩ := State.agrees_iff.1 h
  exact ⟨rfl, hh, hn, fun i hi => absurd hi (Nat.not_lt_zero i), htree⟩

/-- The commit shows at most what the transaction wrote (R156). -/
theorem State.agrees.commit {s u : State} (h : s.agrees u) : s.commit.agrees u.commit := by
  obtain ⟨tb, m, rfl, hh, hn, hm, htree⟩ := State.agrees_iff.1 h
  simp only [State.commit]
  split
  · refine ⟨rfl, hh, hn, fun i hi => hm i ?_, htree⟩
    change i < max s.workLen.toNat s.workLen.toNat at hi
    omega
  · refine ⟨rfl, hh, hn, fun i hi => hm i ?_, htree⟩
    change i < max s.workLen.toNat 0 at hi
    omega

theorem State.agrees.checkTruncated {s u : State} (h : s.agrees u) : s.checkTruncated.agrees u.checkTruncated := by
  obtain ⟨tb, m, rfl, h'⟩ := State.agrees_iff.1 h
  simp only [State.checkTruncated]
  split
  · exact h.raiseTxnError _
  · exact h

/-- The bodies' outcomes correspond: the same error, or states that agree. -/
def outcomesAgree (x y : Except TxnErr State) : Prop :=
  (∃ e, x = .error e ∧ y = .error e) ∨ ∃ s u, x = .ok s ∧ y = .ok u ∧ s.agrees u

/-- A command of an open transaction keeps agreement if its body answers alike in both states. -/
theorem State.agrees.transact {s u : State} (h : s.agrees u) {body : State → Except TxnErr State}
    (hb : s.txnErr = .none → outcomesAgree (body s) (body u)) :
    (transact body s).agrees (transact body u) := by
  have he := h.txnErr_eq
  by_cases hs : s.txnErr = .none
  · rcases hb hs with ⟨e, h1, h2⟩ | ⟨s', u', h1, h2, h'⟩
    · rw [transact_of_error hs h1, transact_of_error (he.trans hs) h2]
      exact h.raiseTxnError e
    · rw [transact_of_ok hs h1, transact_of_ok (he.trans hs) h2]
      exact h'
  · rw [transact_of_failed hs, transact_of_failed (fun hu => hs (he ▸ hu))]
    exact h

/-- ENC_SYM reads the code table alone, and writes the same tokens to both OUTBUFs (R153). -/
theorem State.agrees.appendCode {s u : State} (h : s.agrees u) (hs : s.outbuf.wf = true) (hu : u.outbuf.wf = true)
    (x : Sym) : outcomesAgree (s.appendCode x) (u.appendCode x) := by
  obtain ⟨tb, m, rfl, hh, hn, hm, htree⟩ := State.agrees_iff.1 h
  by_cases h0 : (s.ct.lenOf x).toNat = 0
  · exact .inl ⟨_, State.appendCode_of_unknown h0, State.appendCode_of_unknown h0⟩
  by_cases hfit : s.workLen.toNat + (s.ct.lenOf x).toNat ≤ Config.outCap
  · refine .inr ⟨_, _, State.appendCode_of_fits h0 hfit, State.appendCode_of_fits h0 hfit, ?_⟩
    refine ⟨rfl, hh, hn, fun i hi => ?_, htree⟩
    have hi : i < max (s.workLen + BitVec.ofNat 17 (s.ct.lenOf x).toNat).toNat s.outLen.toNat := hi
    rw [workLen_add_toNat hfit] at hi
    by_cases hin : s.workLen.toNat ≤ i ∧ i < s.workLen.toNat + (s.ct.lenOf x).toNat
    · simp only [Memory.read_shiftOut_of_inside hs hin.1 hin.2, Memory.read_shiftOut_of_inside hu hin.1 hin.2]
    · simp only [Memory.read_shiftOut_of_outside hs hin, Memory.read_shiftOut_of_outside hu hin]
      exact hm i (by omega)
  · exact .inl ⟨_, State.appendCode_of_full h0 (by omega), State.appendCode_of_full h0 (Nat.lt_of_not_le hfit)⟩

/-- The same byte emitted in both (R174). -/
theorem State.agrees.emit {s u : State} (h : s.agrees u) (hs : s.outbuf.wf = true) (hu : u.outbuf.wf = true)
    (hlt : s.workLen.toNat < Config.outCap) (v : Byte) (c : NodeIdx) :
    State.agrees { s with outbuf := s.outbuf.write s.workLen.toNat v, workLen := s.workLen + 1, cursor := c }
      { u with outbuf := u.outbuf.write u.workLen.toNat v, workLen := u.workLen + 1, cursor := c } := by
  obtain ⟨tb, m, rfl, hh, hn, hm, htree⟩ := State.agrees_iff.1 h
  refine ⟨rfl, hh, hn, fun i hi => ?_, htree⟩
  have hi : i < max (s.workLen + BitVec.ofNat 17 1).toNat s.outLen.toNat := hi
  rw [workLen_add_toNat hlt] at hi
  by_cases hin : i = s.workLen.toNat
  · simp only [hin, Memory.read_write_self hs, Memory.read_write_self hu]
  · simp only [Memory.read_write_of_ne hs hin, Memory.read_write_of_ne hu hin]
    exact hm i (by omega)

/-- The nodes agree in kind, and a leaf's symbol is the same in both. -/
theorem Node.agrees.isLeaf_eq {c d : Node} (h : Node.agrees c d) : d.isLeaf = c.isLeaf := h.1.symm

theorem Node.agrees.sym_eq {c d : Node} (h : Node.agrees c d) (hl : c.isLeaf = true) : d.sym = c.sym := by
  obtain ⟨-, -, hf⟩ := h
  rw [if_pos hl] at hf
  exact hf.symm

/-- An internal node leads to the same children in both stores. -/
theorem TreeBuilder.child_eq_of_agrees {a b : TreeBuilder} {k : NodeIdx} (h : Node.agrees (a.nodeAt k) (b.nodeAt k))
    (hl : (a.nodeAt k).isLeaf = false) (c : Bool) : b.child k c = a.child k c := by
  obtain ⟨-, -, hf⟩ := h
  rw [if_neg (by simp [hl])] at hf
  cases c
  · exact hf.1.symm
  · exact hf.2.symm

/-- In a single-symbol model the decoder reads the leaf 0 alone (R173). -/
theorem State.agrees.singleSymbolStep {s u : State} (h : s.agrees u) (hs : s.outbuf.wf = true) (hu : u.outbuf.wf = true)
    (hp : s.phase ≠ .train) (ht : s.TreeWf) (hn : s.nsym = 1) (b : Bool) :
    outcomesAgree (s.singleSymbolStep b) (u.singleSymbolStep b) := by
  cases b with
  | true => exact .inl ⟨_, rfl, rfl⟩
  | false =>
    have hroot : s.root = 0 := BitVec.eq_of_toNat_eq (by rw [ht.root, hn]; rfl)
    obtain ⟨hleaf, -, -⟩ := ht.leaf 0 (by rw [hn]; decide)
    have hemit := h.emit hs hu
    obtain ⟨tb, m, rfl, -, -, -, htree⟩ := State.agrees_iff.1 h
    have hsym : (tb.nodeAt s.root).sym = (s.tb.nodeAt s.root).sym := by
      rw [hroot]
      exact Node.agrees.sym_eq (htree hp 0 (by rw [hn]; decide)) hleaf
    change outcomesAgree (s.emit _) (State.emit (tb.nodeAt s.root).sym _)
    rw [hsym]
    by_cases hlt : s.workLen.toNat < Config.outCap
    · exact .inr ⟨_, _, State.emit_of_lt hlt, State.emit_of_lt hlt, hemit hlt _ s.cursor⟩
    · exact .inl ⟨_, State.emit_of_full (Nat.le_of_not_lt hlt), State.emit_of_full (Nat.le_of_not_lt hlt)⟩

/-- From an internal node of the tree the decoder moves to the same child in both (R174, R176). -/
theorem State.agrees.treeStep {s u : State} (h : s.agrees u) (hs : s.outbuf.wf = true) (hu : u.outbuf.wf = true)
    (hp : s.phase ≠ .train) (ht : s.TreeWf) (hc : s.nsym.toNat ≤ s.cursor.toNat)
    (hc' : s.cursor.toNat < 2 * s.nsym.toNat - 1) (b : Bool) : outcomesAgree (s.treeStep b) (u.treeStep b) := by
  have hemit := h.emit hs hu
  obtain ⟨tb, m, rfl, hh, hn, hm, htree⟩ := State.agrees_iff.1 h
  obtain ⟨hint, hl, hr, -⟩ := ht.internal s.cursor hc hc'
  have hchild : tb.child s.cursor b = s.tb.child s.cursor b :=
    TreeBuilder.child_eq_of_agrees (htree hp s.cursor hc') hint b
  have hlt : s.tb.child s.cursor b < s.cursor := by
    cases b
    · exact hl
    · exact hr
  have hnode : Node.agrees (s.tb.nodeAt (s.tb.child s.cursor b)) (tb.nodeAt (s.tb.child s.cursor b)) :=
    htree hp _ (lt_trans (BitVec.lt_def.1 hlt) hc')
  cases hleaf : (s.tb.nodeAt (s.tb.child s.cursor b)).isLeaf with
  | false =>
    refine .inr ⟨_, _, State.treeStep_of_internal hleaf, State.treeStep_of_internal ?_, ?_⟩
    · change (tb.nodeAt (tb.child s.cursor b)).isLeaf = false
      rw [hchild, hnode.isLeaf_eq, hleaf]
    · change State.agrees _ { s with tb := tb, outbuf := m, cursor := tb.child s.cursor b }
      rw [hchild]
      exact ⟨rfl, hh, hn, hm, htree⟩
  | true =>
    have hleaf' : (tb.nodeAt (tb.child s.cursor b)).isLeaf = true := by rw [hchild, hnode.isLeaf_eq, hleaf]
    by_cases hw : s.workLen.toNat < Config.outCap
    · refine .inr ⟨_, _, State.treeStep_of_leaf hleaf hw, State.treeStep_of_leaf hleaf' hw, ?_⟩
      change State.agrees _ { s with
        tb := tb
        outbuf := m.write s.workLen.toNat (tb.nodeAt (tb.child s.cursor b)).sym
        workLen := s.workLen + 1
        cursor := s.root }
      rw [hchild, hnode.sym_eq hleaf]
      exact hemit hw _ s.root
    · exact .inl ⟨_, State.treeStep_of_full hleaf (Nat.le_of_not_lt hw), State.treeStep_of_full hleaf' (Nat.le_of_not_lt hw)⟩

/-- DEC_BIT in agreeing states (R172). -/
theorem State.agrees.takeToken {s u : State} (h : s.agrees u) (hs : s.outbuf.wf = true) (hu : u.outbuf.wf = true)
    (hp : s.phase = .dec) (ht : s.TreeWf) (hc : s.cursorInv) (he : s.txnErr = .none) (t : Byte) :
    outcomesAgree (s.takeToken t) (u.takeToken t) := by
  have hn := h.nsym_eq
  have hp' : s.phase ≠ .train := by rw [hp]; decide
  by_cases h0 : s.nsym = 0
  · exact .inl ⟨_, State.takeToken_of_empty h0 t, State.takeToken_of_empty (hn.trans h0) t⟩
  have h0' : u.nsym ≠ 0 := hn ▸ h0
  cases hb : tokenBit t with
  | none => exact .inl ⟨_, State.takeToken_of_invalid h0 hb, State.takeToken_of_invalid h0' hb⟩
  | some b =>
    by_cases h1 : s.nsym = 1
    · rw [State.takeToken_of_single h1 hb, State.takeToken_of_single (hn.trans h1) hb]
      exact h.singleSymbolStep hs hu hp' ht h1 b
    · rw [State.takeToken_of_tree h0 h1 hb, State.takeToken_of_tree h0' (hn ▸ h1) hb]
      obtain ⟨hlo, hhi⟩ := hc hp (by bv_omega) he
      exact h.treeStep hs hu hp' ht hlo hhi b

/-- Every command does the same to agreeing states (R45). -/
theorem State.agrees.effect {s u : State} (h : s.agrees u) (hs : s.outbuf.wf = true) (hu : u.outbuf.wf = true)
    (ht : s.treeInv) (hc : s.cursorInv) {i : Instr} (hl : legalPhase i s.phase = true) :
    (effect i s).agrees (effect i u) := by
  cases i with
  | clear => exact h.clearModel
  | trainSym x => exact h.countSymbol x
  | build => exact h.buildModel
  | getCode x => exact h.lookUp x
  | encBegin => exact h.beginTxn.enter (ne_train_of_legal hl rfl) .enc
  | encSym x => exact h.transact fun _ => h.appendCode hs hu x
  | encEnd => exact h.commit.enter (by rw [State.commit_phase]; exact ne_train_of_legal hl rfl) .ready
  | decBegin =>
    change State.agrees { s.beginTxn with cursor := s.root, phase := .dec }
      { u.beginTxn with cursor := u.root, phase := .dec }
    rw [h.root_eq]
    exact (h.beginTxn.setCursor s.root).enter (ne_train_of_legal hl rfl) .dec
  | decBit t =>
    have hp : s.phase = .dec := by simpa [legalPhase] using hl
    exact h.transact fun he => h.takeToken hs hu hp (ht (by rw [hp]; decide)) hc he t
  | decEnd =>
    refine h.checkTruncated.commit.enter ?_ .ready
    rw [State.commit_phase, State.checkTruncated_phase]
    exact ne_train_of_legal hl rfl

/-- Equations for two outcomes carry agreement over to the states they answer. -/
theorem agrees_of_next {x y : Result} {a b s' u' : State} (hx : x = .next a) (hy : y = .next b) (h : a.agrees b)
    (hs' : x = .next s') (hu' : y = .next u') : s'.agrees u' := by
  cases hx.symm.trans hs'
  cases hy.symm.trans hu'
  exact h

/-- A command, accepted or rejected, does the same to agreeing states. -/
theorem State.agrees.exec {s u s' u' : State} (h : s.agrees u) (hs : s.outbuf.wf = true) (hu : u.outbuf.wf = true)
    (ht : s.treeInv) (hc : s.cursorInv) {i : Instr} (hs' : exec i s = .next s') (hu' : exec i u = .next u') :
    s'.agrees u' := by
  have hp := congrArg (legalPhase i) h.phase_eq
  cases hl : legalPhase i s.phase with
  | true =>
    refine agrees_of_next (exec_of_legal hl) (exec_of_legal (hp.trans hl)) ?_ hs' hu'
    exact h.accepted.effect hs hu (ht.of_sameRegs ⟨_, _, _, _, _, _, rfl⟩) hc hl
  | false =>
    exact agrees_of_next (exec_of_illegal hl) (exec_of_illegal (hp.trans hl)) (h.raiseCmdError .badPhase) hs' hu'

/-- Settles O59: registers show nothing unspecified (`State.agrees.memRead_eq`), agreeing states take the same kind of step
(`step_shape`), and each kind keeps agreement. -/
theorem unspecifiedElementsAreNeverObserved : Obligations.UnspecifiedElementsAreNeverObserved := by
  intro s u ht hc _ _ hs hu h
  have hact := h.activity_eq
  refine ⟨h.memRead_eq, fun s' u' hs' hu' => ?_⟩
  rcases step_shape s.activity with ⟨a, hstep⟩ | hstep | hstep | ⟨i, hstep⟩
  · exact agrees_of_next (hstep s rfl) (hstep u hact) (h.setActivity a).serveHost hs' hu'
  · exact agrees_of_next (hstep s rfl) (hstep u hact) h.release hs' hu'
  · exact agrees_of_next (hstep s rfl) (hstep u hact) (h.release.raiseCmdError .illegalCommand) hs' hu'
  · rw [hstep s rfl] at hs'
    rw [hstep u hact] at hu'
    exact h.release.exec hs hu (ht.of_sameRegs ⟨_, _, _, _, _, _, rfl⟩) hc hs' hu'

end Sys2Proof.Machine

/-! ## The block's life between commands (R24, R232, R240) -/

namespace Sys2Proof.Machine

/-- A host's read-out holds reads only (R92). -/
theorem rst_notMem_readout (n : Nat) : .rst ∉ readout n := by
  simp [readout]

/-- Without RST in the script, serving the host while the block is busy changes only DROPPED, which it never clears, and the
host's side, which gets no RST. -/
theorem serveHost_of_busy {s : State} (hb : s.busy = true) (hr : .rst ∉ s.host) :
    ∃ d host log, serveHost s = { s with dropped := d, host := host, readLog := log } ∧ (s.dropped = true → d = true) ∧
      .rst ∉ host := by
  cases hh : s.host with
  | nil => exact ⟨_, _, _, serveHost_nil hh, id, hr⟩
  | cons a rest =>
    have hrest : .rst ∉ rest := fun h => hr (hh ▸ List.mem_cons_of_mem _ h)
    cases a with
    | read off => exact ⟨_, _, _, serveHost_read hh, id, hrest⟩
    | write off v =>
      rcases memWrite_cases { s with host := rest } off v with ⟨-, h⟩ | ⟨-, -, h⟩ | ⟨-, hidle, -⟩
      · exact ⟨_, _, _, (serveHost_write hh).trans h, id, hrest⟩
      · exact ⟨_, _, _, (serveHost_write hh).trans h, fun _ => rfl, hrest⟩
      · exact absurd (hb.symm.trans hidle) (by decide)
    | wait => exact ⟨_, _, _, (serveHost_wait hh).trans (if_pos hb), id, hr⟩
    | readout =>
      refine ⟨_, _, _, serveHost_readout hh, id, fun h => ?_⟩
      rcases List.mem_append.1 h with h | h
      · exact rst_notMem_readout _ h
      · exact hrest h
    | rst => exact absurd (hh ▸ List.mem_cons_self) hr

/-- What a busy block may change before it completes: what it is doing, DROPPED, which it does not clear, and the host's side. -/
def State.waits (a : Activity) (s t : State) : Prop :=
  ∃ d host log, t = { s with activity := a, dropped := d, host := host, readLog := log } ∧ (s.dropped = true → d = true) ∧
    .rst ∉ host

theorem State.waits.trans {a b : Activity} {s t u : State} (hst : s.waits a t) (htu : t.waits b u) : s.waits b u := by
  obtain ⟨d, host, log, rfl, hd, -⟩ := hst
  obtain ⟨d', host', log', rfl, hd', hr⟩ := htu
  exact ⟨d', host', log', rfl, fun h => hd' (hd h), hr⟩

theorem State.waits.activity_eq {a : Activity} {s t : State} (h : s.waits a t) : t.activity = a := by
  obtain ⟨d, host, log, rfl, -⟩ := h; rfl

theorem State.waits.rst_notMem {a : Activity} {s t : State} (h : s.waits a t) : .rst ∉ t.host := by
  obtain ⟨d, host, log, rfl, -, hr⟩ := h; exact hr

/-- A step of a busy block with `n + 1` steps to go. -/
theorem step_waits {s : State} {a : Activity} (hr : .rst ∉ s.host)
    (hstep : step s = .next (serveHost { s with activity := a })) (hb : State.busy { s with activity := a } = true) :
    ∃ t, step s = .next t ∧ s.waits a t := by
  obtain ⟨d, host, log, h, hd, hr'⟩ := serveHost_of_busy hb hr
  exact ⟨_, hstep.trans (by rw [h]), d, host, log, rfl, hd, hr'⟩

/-- A running command with `n` steps to go comes in `n` steps to the step in which it completes. -/
theorem run_running (n : Nat) {s : State} (hr : .rst ∉ s.host) {w : Word} {old : Bool} (ha : s.activity = .running w old n) :
    ∃ t, core.run n s = .next t ∧ s.waits (.running w old 0) t := by
  induction n generalizing s with
  | zero => exact ⟨s, rfl, _, _, _, by rw [← ha], id, hr⟩
  | succ n ih =>
    obtain ⟨t, ht, hst⟩ := step_waits (a := .running w old n) hr (step_of_settled (by simp only [nextEvent, ha])) rfl
    obtain ⟨u, hu, htu⟩ := ih hst.rst_notMem hst.activity_eq
    exact ⟨u, (run_succ_of_next ht).trans hu, hst.trans htu⟩

/-- An initialisation with `n` steps to go has ended after `n + 1` steps (R232). -/
theorem run_initialising (n : Nat) {s : State} (hr : .rst ∉ s.host) (ha : s.activity = .initialising n) :
    ∃ t, core.run (n + 1) s = .next t ∧ s.waits .idle t := by
  induction n generalizing s with
  | zero =>
    have hstep : step s = .next s.release := step_of_settled (by simp only [nextEvent, ha])
    exact ⟨_, (run_succ_of_next hstep).trans rfl, _, _, _, rfl, id, hr⟩
  | succ n ih =>
    obtain ⟨t, ht, hst⟩ := step_waits (a := .initialising n) hr (step_of_settled (by simp only [nextEvent, ha])) rfl
    obtain ⟨u, hu, htu⟩ := ih hst.rst_notMem hst.activity_eq
    exact ⟨u, (run_succ_of_next ht).trans hu, hst.trans htu⟩

/-- Settles O16, by induction on the number of steps the block stays busy (`run_running`, `run_initialising`). -/
theorem busyBlockComesToCompletion : Obligations.BusyBlockComesToCompletion := by
  intro n s hr
  constructor
  · intro w old ha
    obtain ⟨_, ht, d, host, log, rfl, hd, -⟩ := run_running n hr ha
    exact ⟨_, ht, rfl, hd⟩
  · intro ha
    obtain ⟨_, ht, d, host, log, rfl, hd, -⟩ := run_initialising n hr ha
    exact ⟨_, ht, rfl, hd⟩

/-! ## Phases (R46, R86) -/

/-- The table of R46 with the source phase left out: where each command leads. -/
def phaseAfter : Instr → Phase
  | .clear | .trainSym _ => .train
  | .build | .getCode _ | .encEnd | .decEnd => .ready
  | .encBegin | .encSym _ => .enc
  | .decBegin | .decBit _ => .dec

/-- The table of R46 lists a phase exactly where R86 makes the command legal. -/
theorem phaseTable_eq (i : Instr) (p : Phase) :
    phaseTable i p = if legalPhase i p = true then some (phaseAfter i) else none := by
  cases i <;> cases p <;> rfl

theorem effect_phase {i : Instr} {s : State} (h : legalPhase i s.phase = true) : (effect i s).phase = phaseAfter i := by
  cases i with
  | clear | build | encBegin | encEnd | decBegin | decEnd => rfl
  | trainSym x =>
    have hp : s.phase = .train := by simpa [legalPhase] using h
    exact (State.countSymbol_phase s x).trans hp
  | getCode x => exact (by simpa [legalPhase] using h : s.phase = .ready)
  | encSym x =>
    obtain ⟨m, k, e, he, -⟩ := effect_encSym_frame x s
    rw [he]
    exact (by simpa [legalPhase] using h : s.phase = .enc)
  | decBit t =>
    obtain ⟨m, k, c, e, he, -⟩ := effect_decBit_frame t s
    rw [he]
    exact (by simpa [legalPhase] using h : s.phase = .dec)

/-- An accepted command leaves CMD_ERR at NONE, or raises TRAIN_OVERFLOW (R105, R203). -/
theorem effect_cmdErr {i : Instr} {s : State} (h : s.cmdErr = .none) :
    (effect i s).cmdErr = .none ∨ (effect i s).cmdErr = .trainOverflow := by
  cases i with
  | clear | build | getCode _ | encBegin | decBegin => exact .inl h
  | trainSym x =>
    simp only [effect, State.countSymbol]
    split
    · exact .inr rfl
    · exact .inl h
  | encSym x =>
    obtain ⟨m, k, e, he, -⟩ := effect_encSym_frame x s
    exact .inl (by rw [he]; exact h)
  | decBit t =>
    obtain ⟨m, k, c, e, he, -⟩ := effect_decBit_frame t s
    exact .inl (by rw [he]; exact h)
  | encEnd => exact .inl ((State.commit_cmdErr s).trans h)
  | decEnd => exact .inl ((State.commit_cmdErr _).trans ((State.checkTruncated_cmdErr s).trans h))

/-- Settles O22: a legal command leads where the table says (`effect_phase`), and a step changes the phase by RST or by such a
command (`step_effect_cases`). -/
theorem phaseChangesOnlyAsListed : Obligations.PhaseChangesOnlyAsListed := by
  refine ⟨fun i s => ?_, fun s t h hne => ?_⟩
  · rw [phaseTable_eq]
    split
    · next hl =>
      refine ⟨fun p hp => ⟨_, exec_of_legal hl, ?_, ?_⟩, fun hn => nomatch hn⟩
      · cases hp
        exact effect_phase (s := s.accepted) hl
      · rcases effect_cmdErr (i := i) (s := s.accepted) rfl with h | h <;> rw [h] <;> decide
    · next hl => exact ⟨fun p hp => (nomatch hp), fun _ => exec_of_illegal (by simpa using hl)⟩
  · rcases step_effect_cases h with ⟨_, _, _, _, _, _, rfl⟩ | ⟨a, rest, hh, rfl⟩ | ⟨w, old, i, ha, hd, hl, rfl⟩
    · exact absurd rfl hne
    · exact .inl ⟨rfl, ⟨rest, hh, rfl⟩, _, rfl⟩
    · refine .inr ⟨w, old, i, ha, hd, ?_⟩
      rw [phaseTable_eq, if_pos hl, effect_phase (s := s.release.accepted) hl]

/-! ## Latched errors and DROPPED (R26, R28, R201, R207) -/

/-- Only CLEAR and the commands that open a transaction clear a latched data error (R207). -/
theorem effect_txnErr_of_latched {i : Instr} {s : State} (he : s.txnErr ≠ .none) :
    (effect i s).txnErr = s.txnErr ∨
      ((effect i s).txnErr = .none ∧ (i = .clear ∨ i = .encBegin ∨ i = .decBegin)) := by
  cases i with
  | clear => exact .inr ⟨rfl, .inl rfl⟩
  | encBegin => exact .inr ⟨rfl, .inr (.inl rfl)⟩
  | decBegin => exact .inr ⟨rfl, .inr (.inr rfl)⟩
  | trainSym x => exact .inl (State.countSymbol_txnErr s x)
  | build | getCode _ => exact .inl rfl
  | encEnd => exact .inl (State.commit_txnErr s)
  | encSym x =>
    obtain ⟨m, k, e, h, hk⟩ := effect_encSym_frame x s
    exact .inl (by rw [h]; exact hk he)
  | decBit t =>
    obtain ⟨m, k, c, e, h, hk⟩ := effect_decBit_frame t s
    exact .inl (by rw [h]; exact hk he)
  | decEnd =>
    refine .inl ((State.commit_txnErr _).trans ?_)
    rw [State.checkTruncated_of_failed he]

/-- Settles O23, from `effect_txnErr_of_latched`. -/
theorem firstDataErrorWins : Obligations.FirstDataErrorWins := by
  intro s t he h
  rcases step_effect_cases h with ⟨_, _, _, _, _, _, rfl⟩ | ⟨a, rest, hh, rfl⟩ | ⟨w, old, i, ha, hd, hl, rfl⟩
  · exact .inl rfl
  · exact .inr ⟨rfl, .inl ⟨⟨rest, hh, rfl⟩, _, rfl⟩⟩
  · rcases effect_txnErr_of_latched (i := i) (s := s.release.accepted) he with h | ⟨h, hi⟩
    · exact .inl h
    · refine .inr ⟨h, .inr ⟨w, old, ha, ?_⟩⟩
      rcases hi with rfl | rfl | rfl
      · exact .inl hd
      · exact .inr ⟨by simpa [legalPhase] using hl, .inl hd⟩
      · exact .inr ⟨by simpa [legalPhase] using hl, .inr hd⟩

/-- No command but CLEAR changes DROPPED (R28). -/
theorem effect_dropped {i : Instr} (hi : i ≠ .clear) (s : State) : (effect i s).dropped = s.dropped := by
  cases i with
  | clear => exact absurd rfl hi
  | build | getCode _ | encBegin | decBegin => rfl
  | trainSym x => exact State.countSymbol_dropped s x
  | encSym x => obtain ⟨m, k, e, h, -⟩ := effect_encSym_frame x s; rw [h]
  | decBit t => obtain ⟨m, k, c, e, h, -⟩ := effect_decBit_frame t s; rw [h]
  | encEnd => exact State.commit_dropped s
  | decEnd => exact (State.commit_dropped _).trans (State.checkTruncated_dropped s)

/-- Serving the host changes DROPPED by RST, or by a CMD write while the block is busy (R28, R201). -/
theorem serveHost_dropped (s : State) :
    (serveHost s).dropped = s.dropped ∨
      (∃ rest, s.host = .rst :: rest ∧ serveHost s = State.hardReset { s with host := rest }) ∨
      (s.busy = true ∧ (serveHost s).dropped = true ∧
        ∃ off v rest, s.host = .write off v :: rest ∧ off < 4 ∧ (serveHost s).host = rest) := by
  rcases serveHost_cases s with h | ⟨-, -, log, -, new, h, -⟩ | ⟨off, v, rest, hh, ho, ⟨hb, h⟩ | ⟨-, h⟩⟩ | hrst
  · exact .inl (by rw [h])
  · exact .inl (by rw [h])
  · refine .inr (.inr ⟨hb, ?_, off, v, rest, hh, (alignedOffset_eq_zero_iff off).1 ho, ?_⟩) <;> rw [h]
  · exact .inl (by rw [h]; rfl)
  · exact .inr (.inl hrst)

/-- The ways in which a step changes DROPPED. -/
theorem step_dropped_cases {s t : State} (h : step s = .next t) :
    t.dropped = s.dropped ∨
      (t.dropped = false ∧ (((∃ rest, s.host = .rst :: rest ∧ t.host = rest) ∧ ∃ n, t.activity = .initialising n) ∨
        ∃ w old, s.activity = .running w old 0 ∧ decode w = .ok .clear)) ∨
      (t.dropped = true ∧ s.activity ≠ .idle ∧
        ∃ off v rest, s.host = .write off v :: rest ∧ off < 4 ∧ t.host = rest) := by
  rcases step_cases h with ⟨a, rfl, ha⟩ | ⟨-, rfl⟩ | ⟨w, d, e, -, -, rfl⟩ | ⟨w, d, i, ha, hd, hx⟩
  · rcases serveHost_dropped { s with activity := a } with h | ⟨rest, hh, h⟩ | ⟨hb, hd, off, v, rest, hh, ho, hr⟩
    · exact .inl h
    · rw [h]
      exact .inr (.inl ⟨rfl, .inl ⟨⟨rest, hh, rfl⟩, _, rfl⟩⟩)
    · refine .inr (.inr ⟨hd, fun hidle => ?_, off, v, rest, hh, ho, hr⟩)
      rcases ha with ⟨rfl, -⟩ | ⟨n, -, ha⟩ | ⟨w, d, n, -, ha⟩
      · cases hb
      · rw [ha] at hidle; cases hidle
      · rw [ha] at hidle; cases hidle
  · exact .inl rfl
  · exact .inl rfl
  · rcases exec_cases hx with ⟨-, rfl⟩ | ⟨-, rfl⟩
    · by_cases hi : i = .clear
      · subst hi
        exact .inr (.inl ⟨rfl, .inr ⟨w, d, ha, hd⟩⟩)
      · exact .inl (effect_dropped hi _)
    · exact .inl rfl

/-- Settles O24, from `step_dropped_cases`. -/
theorem droppedIsSticky : Obligations.DroppedIsSticky := by
  intro s t h
  rcases step_dropped_cases h with heq | ⟨hf, hwhy⟩ | ⟨ht, hwhy⟩
  · exact ⟨fun hs ht => absurd (hs.symm.trans (heq.symm.trans ht)) (by decide),
      fun hs ht => absurd (hs.symm.trans (heq.symm.trans ht)) (by decide)⟩
  · exact ⟨fun _ _ => hwhy, fun _ ht => absurd (hf.symm.trans ht) (by decide)⟩
  · exact ⟨fun _ hf => absurd (ht.symm.trans hf) (by decide), fun _ _ => hwhy⟩

end Sys2Proof.Machine

/-! ## Invariants of every step (R25, R29, R31, R34, R37, R39, R40) -/

namespace Sys2Proof.Machine

/-! ### The buffer (R37, R39) -/

theorem State.bufferWf.commit {s : State} (h : s.bufferWf) : s.commit.bufferWf := by
  obtain ⟨hw, ho, hwf, hcap⟩ := h
  unfold State.commit
  split
  · exact ⟨hw, hw, hwf, hcap⟩
  · exact ⟨hw, Nat.zero_le _, hwf, hcap⟩

theorem State.bufferWf.checkTruncated {s : State} (h : s.bufferWf) : s.checkTruncated.bufferWf := by
  unfold State.checkTruncated
  split <;> exact h

theorem State.bufferWf.effect {i : Instr} {s : State} (h : s.bufferWf) : (effect i s).bufferWf := by
  obtain ⟨hw, ho, hwf, hcap⟩ := id h
  cases i with
  | clear | encBegin | decBegin => exact ⟨Nat.zero_le _, Nat.zero_le _, hwf, hcap⟩
  | build | getCode _ => exact h
  | trainSym x =>
    simp only [Machine.effect, State.countSymbol]
    split <;> exact h
  | encSym x =>
    rcases effect_encSym_cases x s with ⟨-, he⟩ | ⟨-, e, he⟩ | ⟨-, hfit, he⟩ <;> rw [he]
    · exact h
    · exact h
    · refine ⟨?_, ho, Memory.wf_shiftOut hwf _ _ _, Memory.inCap_shiftOut hcap hfit _⟩
      simp only [workLen_add_toNat hfit]
      exact hfit
  | decBit t =>
    rcases effect_decBit_cases t s with ⟨-, he⟩ | ⟨-, e, he⟩ | ⟨-, hlt, v, c, he⟩ | ⟨-, c, he⟩ <;> rw [he]
    · exact h
    · exact h
    · refine ⟨?_, ho, Memory.wf_write hwf _ _, Memory.inCap_write hcap hlt _⟩
      exact (workLen_add_toNat (l := 1) hlt).trans_le hlt
    · exact h
  | encEnd => exact h.commit
  | decEnd => exact h.checkTruncated.commit

/-- Settles O53: every effect keeps the buffer's bounds (`State.bufferWf.effect`). -/
theorem stepKeepsTheBuffer : Obligations.StepKeepsTheBuffer := by
  intro s t hs h
  refine step_keeps (P := State.bufferWf) ?_ (fun s => ?_) (fun i s _ hs => hs.effect) hs h
  · rintro s t ⟨_, _, _, _, _, _, rfl⟩ hs
    exact hs
  · exact ⟨Nat.zero_le _, Nat.zero_le _, rfl, rfl⟩

/-! ### Results and TRAIN (R25, R29, R37, R238) -/

/-- The result registers as they stand in an open transaction: no valid result and OUT_LEN 0. -/
theorem State.resultWf.of_cleared {s : State} (h : s.resOk = false) (ho : s.outLen = 0) : s.resultWf :=
  ⟨fun _ => ho, fun h' => absurd (h.symm.trans h') (by decide)⟩

/-- Outside READY there is no valid result. -/
theorem State.resultWf.cleared {s : State} (h : s.resultWf) (hp : s.phase ≠ .ready) : s.resOk = false ∧ s.outLen = 0 := by
  have hr : s.resOk = false := by
    cases hr : s.resOk with
    | false => rfl
    | true => exact absurd (h.2 hr).1 hp
  exact ⟨hr, h.1 hr⟩

/-- A commit gives a valid result exactly when there is no data error (R156). -/
theorem resultWf_commit (s : State) : State.resultWf { s.commit with phase := .ready } := by
  unfold State.commit
  split
  · next he => exact ⟨fun h => absurd h.symm Bool.false_ne_true, fun _ => ⟨rfl, he⟩⟩
  · exact State.resultWf.of_cleared rfl rfl

theorem State.resultWf.effect {i : Instr} {s : State} (hl : legalPhase i s.phase = true) (hr : s.resultWf) :
    (effect i s).resultWf := by
  cases i with
  | clear | encBegin | decBegin => exact .of_cleared rfl rfl
  | encEnd => exact resultWf_commit s
  | decEnd => exact resultWf_commit s.checkTruncated
  | getCode x => exact hr
  | trainSym x =>
    simp only [Machine.effect, State.countSymbol]
    split <;> exact hr
  | build =>
    have hp : s.phase = .train := by simpa [legalPhase] using hl
    obtain ⟨h, ho⟩ := hr.cleared (by rw [hp]; decide)
    exact .of_cleared h ho
  | encSym x =>
    have hp : s.phase = .enc := by simpa [legalPhase] using hl
    obtain ⟨h, ho⟩ := hr.cleared (by rw [hp]; decide)
    obtain ⟨m, k, e, he, -⟩ := effect_encSym_frame x s
    rw [he]
    exact .of_cleared h ho
  | decBit t =>
    have hp : s.phase = .dec := by simpa [legalPhase] using hl
    obtain ⟨h, ho⟩ := hr.cleared (by rw [hp]; decide)
    obtain ⟨m, k, c, e, he, -⟩ := effect_decBit_frame t s
    rw [he]
    exact .of_cleared h ho

/-- CLEAR clears what TRAIN wants cleared, TRAIN_SYM leaves it so, and no other command leads to TRAIN (R46, R101). -/
theorem State.trainWf.effect {i : Instr} {s : State} (hl : legalPhase i s.phase = true) (ht : s.trainWf) :
    (effect i s).trainWf := by
  intro hp
  rw [effect_phase hl] at hp
  cases i with
  | clear => exact ⟨rfl, rfl, rfl, rfl, rfl, rfl, rfl, rfl, rfl, rfl, rfl⟩
  | trainSym x =>
    have hs := ht (by simpa [legalPhase] using hl)
    simp only [Machine.effect, State.countSymbol]
    split <;> exact hs
  | build | getCode _ | encBegin | encSym _ | encEnd | decBegin | decBit _ | decEnd => cases hp

/-- Settles O54: every effect keeps both invariants (`State.resultWf.effect`, `State.trainWf.effect`). -/
theorem stepKeepsResultVisibility : Obligations.StepKeepsResultVisibility := by
  intro s t hr ht h
  refine step_keeps (P := fun s => s.resultWf ∧ s.trainWf) ?_ (fun s => ?_)
    (fun i s hl ⟨hr, ht⟩ => ⟨hr.effect hl, ht.effect hl⟩) ⟨hr, ht⟩ h
  · rintro s t ⟨_, _, _, _, _, _, rfl⟩ hs
    exact hs
  · exact ⟨.of_cleared rfl rfl, fun _ => ⟨rfl, rfl, rfl, rfl, rfl, rfl, rfl, rfl, rfl, rfl, rfl⟩⟩

/-! ### Codeword bits and the idle heap (R31, R34, R40) -/

/-- R31: the bits at and above each codeword's length are 0. -/
def CodeTable.bitsWf (t : CodeTable) : Prop :=
  ∀ x i, (t.lenOf x).toNat ≤ i → (t.bitsOf x).getLsbD i = false

theorem CodeTable.bitsWf_empty : CodeTable.empty.bitsWf := by
  intro x i _
  rw [CodeTable.bitsOf_empty]
  exact BitVec.getLsbD_zero

theorem CodeTable.bitsWf.setCode {t : CodeTable} (h : t.bitsWf) (x : Sym) {l : BitVec 8} {bits : CodeBits}
    (hb : ∀ i, l.toNat ≤ i → bits.getLsbD i = false) : (t.setCode x l bits).bitsWf := by
  intro y i hi
  by_cases hy : y = x
  · subst hy
    rw [CodeTable.lenOf_setCode_self] at hi
    rw [CodeTable.bitsOf_setCode_self]
    exact hb i hi
  · rw [CodeTable.lenOf_setCode_of_ne _ hy] at hi
    rw [CodeTable.bitsOf_setCode_of_ne _ hy]
    exact h y i hi

/-- Going right sets bit `l` and no bit above it (R130). -/
theorem getLsbD_or_shiftLeft {bits : CodeBits} {l : Nat} (hb : ∀ i, l ≤ i → bits.getLsbD i = false) (i : Nat)
    (hi : l + 1 ≤ i) : (bits ||| (1 <<< l)).getLsbD i = false := by
  rw [BitVec.getLsbD_or, hb i (by omega), Bool.false_or]
  change (BitVec.ofNat 255 (1 <<< l)).getLsbD i = false
  rw [BitVec.getLsbD_ofNat, Nat.one_shiftLeft, Nat.testBit_two_pow_of_ne (by omega), Bool.and_false]

/-- The walk writes a path's bits below the path's length only, whatever the store (R130). -/
theorem walk_bitsWf (b : TreeBuilder) (fuel : Nat) (x : NodeIdx) (l : Nat) (bits : CodeBits) (t : CodeTable)
    (hl : l + fuel ≤ 256) (hb : ∀ i, l ≤ i → bits.getLsbD i = false) (ht : t.bitsWf) :
    (walk b fuel x l bits t).bitsWf := by
  induction fuel generalizing x l bits t with
  | zero => exact ht
  | succ n ih =>
    simp only [walk]
    split
    · refine ht.setCode _ ?_
      rwa [BitVec.toNat_ofNat, Nat.mod_eq_of_lt (by omega)]
    · exact ih _ _ _ _ (by omega) (getLsbD_or_shiftLeft hb) (ih _ _ _ _ (by omega) (fun i hi => hb i (by omega)) ht)

theorem deriveCodes_bitsWf (t : BuiltTree) : (deriveCodes t).bitsWf := by
  unfold deriveCodes
  split
  · exact CodeTable.bitsWf_empty
  · split
    · exact CodeTable.bitsWf_empty.setCode _ fun _ _ => BitVec.getLsbD_zero
    · exact walk_bitsWf _ _ _ _ _ _ (by omega) (fun _ _ => BitVec.getLsbD_zero) CodeTable.bitsWf_empty

theorem State.codeBitsWf_iff {s : State} :
    s.codeBitsWf ↔ s.ct.bitsWf ∧ ∀ i, s.resLen.toNat ≤ i → s.resCode.getLsbD i = false := Iff.rfl

/-- GET_CODE copies a codeword with its unused bits (R151). -/
theorem State.codeBitsWf.lookUp {s : State} (h : s.codeBitsWf) (x : Sym) : (s.lookUp x).codeBitsWf := by
  obtain ⟨hct, -⟩ := State.codeBitsWf_iff.1 h
  refine State.codeBitsWf_iff.2 ⟨hct, fun i hi => ?_⟩
  change ((s.ct.bitsOf x).setWidth 256).getLsbD i = false
  rw [BitVec.getLsbD_setWidth, hct x i hi, Bool.and_false]

theorem State.codeBitsWf.effect {i : Instr} {s : State} (h : s.codeBitsWf) : (effect i s).codeBitsWf := by
  obtain ⟨hct, hres⟩ := State.codeBitsWf_iff.1 h
  cases i with
  | clear => exact State.codeBitsWf_iff.2 ⟨CodeTable.bitsWf_empty, fun _ _ => BitVec.getLsbD_zero⟩
  | build => exact State.codeBitsWf_iff.2 ⟨deriveCodes_bitsWf _, hres⟩
  | getCode x => exact h.lookUp x
  | encBegin | decBegin => exact h
  | trainSym x =>
    simp only [Machine.effect, State.countSymbol]
    split <;> exact h
  | encSym x => obtain ⟨m, k, e, he, -⟩ := effect_encSym_frame x s; rw [he]; exact h
  | decBit t => obtain ⟨m, k, c, e, he, -⟩ := effect_decBit_frame t s; rw [he]; exact h
  | encEnd =>
    simpa only [State.codeBitsWf_iff, Machine.effect, State.commit_ct, State.commit_resLen, State.commit_resCode] using h
  | decEnd =>
    simpa only [State.codeBitsWf_iff, Machine.effect, State.commit_ct, State.commit_resLen, State.commit_resCode,
      State.checkTruncated_ct, State.checkTruncated_resLen, State.checkTruncated_resCode] using h

/-- CLEAR and BUILD leave the heap empty, and no other command touches it (R34). -/
theorem State.heapIdle.effect {i : Instr} {s : State} (h : s.heapIdle) : (effect i s).heapIdle := by
  cases i with
  | clear => rfl
  | build => exact buildTree_hsize _ _
  | getCode _ | encBegin | decBegin => exact h
  | trainSym x => exact (congrArg TreeBuilder.hsize (State.countSymbol_tb s x)).trans h
  | encSym x => obtain ⟨m, k, e, he, -⟩ := effect_encSym_frame x s; rw [he]; exact h
  | decBit t => obtain ⟨m, k, c, e, he, -⟩ := effect_decBit_frame t s; rw [he]; exact h
  | encEnd => exact (congrArg TreeBuilder.hsize (State.commit_tb s)).trans h
  | decEnd => exact (congrArg TreeBuilder.hsize ((State.commit_tb _).trans (State.checkTruncated_tb s))).trans h

/-- At reset there are no codewords and the heap is empty (R43). -/
theorem reset_codeBitsWf : State.reset.codeBitsWf :=
  State.codeBitsWf_iff.2 ⟨CodeTable.bitsWf_empty, fun _ _ => BitVec.getLsbD_zero⟩

/-- Settles O55: every effect keeps both invariants (`State.codeBitsWf.effect`, `State.heapIdle.effect`). -/
theorem stepKeepsCodeBitsAndIdleHeap : Obligations.StepKeepsCodeBitsAndIdleHeap := by
  intro s t hb hh h
  refine step_keeps (P := fun s => s.codeBitsWf ∧ s.heapIdle) ?_ (fun s => ?_)
    (fun i s _ ⟨hb, hh⟩ => ⟨hb.effect, hh.effect⟩) ⟨hb, hh⟩ h
  · rintro s t ⟨_, _, _, _, _, _, rfl⟩ hs
    exact hs
  · exact ⟨reset_codeBitsWf, rfl⟩

/-! ## STATUS (R23) -/

theorem memRead_status (s : State) : memRead s 0x004 = s.statusWord := rfl

section StatusWord

variable (s : State)

theorem statusWord_busy : s.statusWord.getLsbD 0 = s.busy := by
  simp only [State.statusWord, BitVec.getLsbD_cast, BitVec.getLsbD_append]
  simp

theorem statusWord_phase : s.statusWord.extractLsb' 1 2 = s.phase.code := by
  simp (disch := decide) only [State.statusWord, BitVec.extractLsb'_cast, BitVec.extractLsb'_append_eq_of_le,
    BitVec.extractLsb'_append_eq_of_add_le, BitVec.extractLsb'_eq_self, Nat.reduceSub]

theorem statusWord_resOk : s.statusWord.getLsbD 3 = s.resOk := by
  simp only [State.statusWord, BitVec.getLsbD_cast, BitVec.getLsbD_append]
  simp

theorem statusWord_txnErr : s.statusWord.extractLsb' 4 4 = s.txnErr.code := by
  simp (disch := decide) only [State.statusWord, BitVec.extractLsb'_cast, BitVec.extractLsb'_append_eq_of_le,
    BitVec.extractLsb'_append_eq_of_add_le, BitVec.extractLsb'_eq_self, Nat.reduceSub]

theorem statusWord_cmdErr : s.statusWord.extractLsb' 8 4 = s.cmdErr.code := by
  simp (disch := decide) only [State.statusWord, BitVec.extractLsb'_cast, BitVec.extractLsb'_append_eq_of_le,
    BitVec.extractLsb'_append_eq_of_add_le, BitVec.extractLsb'_eq_self, Nat.reduceSub]

theorem statusWord_dropped : s.statusWord.getLsbD 12 = s.shownDropped := by
  simp only [State.statusWord, BitVec.getLsbD_cast, BitVec.getLsbD_append]
  simp

theorem statusWord_reserved : s.statusWord.extractLsb' 13 19 = 0 := by
  simp (disch := decide) only [State.statusWord, BitVec.extractLsb'_cast, BitVec.extractLsb'_append_eq_of_le,
    BitVec.extractLsb'_eq_self, Nat.reduceSub]

theorem State.busy_iff : s.busy = true ↔ s.activity ≠ .idle := by
  rw [← Bool.not_eq_false, ne_eq, State.busy_false_iff]

end StatusWord

/-- Settles O9: STATUS is `State.statusWord`, field by field, and the codes are those of R22, R204 and R206. -/
theorem statusHasTheListedLayout : Obligations.StatusHasTheListedLayout := by
  intro s
  rw [memRead_status, statusWord_busy, statusWord_phase, statusWord_resOk, statusWord_txnErr, statusWord_cmdErr,
    statusWord_dropped]
  refine ⟨s.busy_iff, ?_, rfl, ?_, ?_, rfl, statusWord_reserved s⟩
  · cases s.phase <;> rfl
  · cases s.txnErr <;> rfl
  · cases s.cmdErr <;> rfl

/-! ## The reset state (R43) -/

theorem reset_freqOf (x : Sym) : State.reset.freqOf x = 0 := by
  simp [State.freqOf, State.reset]

theorem reset_statusWord : State.reset.statusWord = 0x00000001 := rfl

/-- Settles O18: the memories by reading a filled vector, the registers by definition. -/
theorem resetValuesAreThoseListed : Obligations.ResetValuesAreThoseListed := by
  refine ⟨reset_statusWord, ⟨_, rfl⟩, rfl, rfl, rfl, rfl, rfl, rfl, rfl, fun x => ?_, rfl, rfl, rfl, rfl⟩
  exact ⟨reset_freqOf x, CodeTable.lenOf_empty x, CodeTable.bitsOf_empty x⟩

theorem reset_countsAgree : State.reset.countsAgree := by
  have hsum : (allSyms.map fun x => (State.reset.freqOf x).toNat).sum = 0 := by simp [reset_freqOf]
  exact hsum.symm

/-- What is claimed outside TRAIN holds at reset, where the phase is TRAIN. -/
theorem reset_of_ne_train {P : Prop} (h : State.reset.phase ≠ .train) : P :=
  absurd rfl h

theorem reset_resultWf : State.reset.resultWf := .of_cleared rfl rfl

theorem reset_trainWf : State.reset.trainWf :=
  fun _ => ⟨rfl, rfl, rfl, rfl, rfl, rfl, rfl, rfl, rfl, rfl, rfl⟩

theorem reset_bufferWf : State.reset.bufferWf :=
  ⟨Nat.zero_le _, Nat.zero_le _, rfl, rfl⟩

/-- Settles O51: no symbol is counted, every register is cleared, and the phase is TRAIN. -/
theorem resetMeetsTheInvariants : Obligations.ResetMeetsTheInvariants :=
  ⟨reset_countsAgree, reset_bufferWf, reset_resultWf, reset_trainWf, reset_codeBitsWf, rfl, reset_of_ne_train,
    reset_of_ne_train, fun h => absurd h (by decide), reset_of_ne_train⟩

end Sys2Proof.Machine

/-! ## The register window (R60 to R68) -/

namespace Sys2Proof.Machine

/-- Settles O6: BASE cancels, and an offset of 17 bits stays below 0x20000. -/
theorem platformWindowStandsAtBase : Obligations.PlatformWindowStandsAtBase := by
  refine ⟨fun off => ?_, fun a ha => if_neg (by omega)⟩
  have hlt : off.toNat < 0x20000 := off.isLt
  rw [windowOffset, if_pos (by omega), Nat.add_sub_cancel_left, BitVec.ofNat_toNat, BitVec.setWidth_eq]

/-! ### Which word an offset reaches (R61, R62) -/

theorem memRead_congr {off off' : Offset} (h : alignedOffset off = alignedOffset off') (s : State) :
    memRead s off = memRead s off' := by
  simp only [memRead, h]

theorem memWrite_congr {off off' : Offset} (h : alignedOffset off = alignedOffset off') (s : State) (v : Word) :
    memWrite s off v = memWrite s off' v := by
  simp only [memWrite, h]

/-- The mask 0x1FFFC clears bits [1:0] and keeps the others. -/
theorem toNat_and_alignMask (off : Offset) : (off &&& 0x1FFFC).toNat = 4 * (off.toNat / 4) := by
  have hmask : off &&& (0x1FFFC : Offset) = off >>> 2 <<< 2 :=
    (BitVec.shiftLeft_ushiftRight (x := off) (n := 2)).symm
  have hlt : off.toNat < 2 ^ 17 := off.isLt
  rw [hmask, BitVec.toNat_shiftLeft, BitVec.toNat_ushiftRight, Nat.shiftRight_eq_div_pow, Nat.shiftLeft_eq]
  omega

theorem alignedOffset_and_alignMask (off : Offset) : alignedOffset (off &&& 0x1FFFC) = alignedOffset off := by
  rw [alignedOffset, toNat_and_alignMask, alignedOffset, Nat.mul_div_cancel_left _ (by decide)]

/-- Settles O7: both accesses look at the offset through `alignedOffset` alone. -/
theorem lowOffsetBitsAreIgnored : Obligations.LowOffsetBitsAreIgnored := fun s off v =>
  have h := (alignedOffset_and_alignMask off).symm
  ⟨memRead_congr h s, memWrite_congr h s v⟩

/-- A multiple of 4 inside the window is a word's own offset. -/
theorem alignedOffset_ofNat {a : Nat} (ha : a < 2 ^ 17) (h4 : 4 ∣ a) : alignedOffset (BitVec.ofNat 17 a) = a := by
  rw [alignedOffset, BitVec.toNat_ofNat, Nat.mod_eq_of_lt ha, Nat.mul_div_cancel' h4]

/-! ### Where nothing is written, and where 0 is read (R63, R64) -/

theorem memWrite_of_not_cmd {off : Offset} (h : ¬ off < 4) (s : State) (v : Word) : memWrite s off v = s :=
  if_neg (mt (alignedOffset_eq_zero_iff off).1 h)

/-- The words of the window that hold no readable register: CMD and the two reserved ranges. -/
def readsZero (a : Nat) : Prop :=
  a < 0x4 ∨ 0x18 ≤ a ∧ a < 0x20 ∨ 0x40 ≤ a ∧ a < 0x10000

theorem memRead_of_readsZero {off : Offset} (h : readsZero (alignedOffset off)) (s : State) : memRead s off = 0 := by
  unfold readsZero at h
  simp only [memRead]
  iterate 7 rw [if_neg (by omega)]

/-- Settles O8, from `memWrite_of_not_cmd` and `memRead_of_readsZero`. -/
theorem onlyCmdWritesHaveAnEffect : Obligations.OnlyCmdWritesHaveAnEffect := by
  refine ⟨fun s off v h => memWrite_of_not_cmd (BitVec.not_lt.2 h) s v, fun s off h => memRead_of_readsZero ?_ s⟩
  simp only [BitVec.lt_def, BitVec.le_def, BitVec.reduceToNat] at h
  unfold readsZero alignedOffset
  omega

/-! ### The result registers (R68) -/

theorem memRead_resCode {off : Offset} (h1 : 0x20 ≤ alignedOffset off) (h2 : alignedOffset off ≤ 0x3C) (s : State) :
    memRead s off = s.resCodeWord ((alignedOffset off - 0x20) / 4) := by
  simp only [memRead]
  iterate 5 rw [if_neg (by omega)]
  rw [if_pos ⟨h1, h2⟩]

theorem resCodeWord_getLsbD (s : State) (k : Nat) {i : Nat} (hi : i < 32) :
    (s.resCodeWord k).getLsbD i = s.resCode.getLsbD (32 * k + i) := by
  rw [State.resCodeWord, BitVec.getLsbD_extractLsb', decide_eq_true hi, Bool.true_and]

/-- Settles O10: a register narrower than a word is read extended with zeros, and RES_CODE a word at a time
(`memRead_resCode`). -/
theorem resultRegistersReadTheirFields : Obligations.ResultRegistersReadTheirFields := by
  refine fun s => ⟨?_, rfl, ?_, ?_, fun k i hk hi => ?_⟩
  · exact BitVec.toNat_setWidth_of_le (b := s.nsym) (by decide)
  · exact BitVec.toNat_setWidth_of_le (b := s.outLen) (by decide)
  · exact BitVec.toNat_setWidth_of_le (b := s.resLen) (by decide)
  · have ha : alignedOffset (BitVec.ofNat 17 (0x20 + 4 * k)) = 0x20 + 4 * k := alignedOffset_ofNat (by omega) (by omega)
    rw [memRead_resCode (by omega) (by omega), ha, Nat.add_sub_cancel_left, Nat.mul_div_cancel_left _ (by decide),
      resCodeWord_getLsbD s k hi]

/-! ### The OUT window (R66, R67, R238) -/

theorem memRead_out {off : Offset} (h : 0x10000 ≤ alignedOffset off) (s : State) :
    memRead s off = s.outWord ((alignedOffset off - 0x10000) / 4) := by
  simp only [memRead]
  iterate 6 rw [if_neg (by omega)]
  rw [if_pos h]

/-- Byte `b` of an OUT word, the lowest-numbered byte least significant (R66). -/
theorem outWord_extractLsb' (s : State) (j : Nat) {b : Nat} (hb : b < 4) :
    (s.outWord j).extractLsb' (8 * b) 8 = s.outByte (4 * j + b) := by
  interval_cases b <;>
    simp (disch := decide) only [State.outWord, BitVec.extractLsb'_cast, BitVec.extractLsb'_append_eq_of_le,
      BitVec.extractLsb'_append_eq_of_add_le, BitVec.extractLsb'_eq_self, Nat.reduceSub, Nat.reduceMul, Nat.add_zero]

/-- With nothing committed every byte of the window is 0 (R238). -/
theorem outWord_of_outLen_eq_zero {s : State} (h : s.outLen = 0) (j : Nat) : s.outWord j = 0 := by
  have hbyte (i : Nat) : s.outByte i = 0 := if_neg (by rw [h]; exact Nat.not_lt_zero i)
  simp only [State.outWord, hbyte]
  rfl

/-- Settles O11: the bytes of an OUT word by `outWord_extractLsb'`; without a valid result OUT_LEN is 0. -/
theorem outWindowPacksCommittedBytes : Obligations.OutWindowPacksCommittedBytes := by
  constructor
  · intro s j b hj hb
    have ha : alignedOffset (BitVec.ofNat 17 (0x10000 + 4 * j)) = 0x10000 + 4 * j :=
      alignedOffset_ofNat (by omega) (by omega)
    rw [memRead_out (by omega), ha, Nat.add_sub_cancel_left, Nat.mul_div_cancel_left _ (by decide),
      outWord_extractLsb' s j hb]
    rfl
  · intro s off hwf hok hoff
    have hoff : 0x10000 ≤ off.toNat := hoff
    have ha : 0x10000 ≤ alignedOffset off := by unfold alignedOffset; omega
    rw [memRead_out ha, outWord_of_outLen_eq_zero (hwf.1 hok)]

end Sys2Proof.Machine

/-! ## Host accesses (R65, R70, R71, R76, R201) -/

namespace Sys2Proof.Machine

/-! ### A step that serves the host -/

theorem step_of_idle {s : State} (h : s.activity = .idle) : step s = .next (serveHost s) :=
  step_of_settled (by simp only [nextEvent, h])

theorem step_of_running {s : State} {w : Word} {old : Bool} {n : Nat} (h : s.activity = .running w old (n + 1)) :
    step s = .next (serveHost { s with activity := .running w old n }) :=
  step_of_settled (by simp only [nextEvent, h])

theorem step_of_initialising {s : State} {n : Nat} (h : s.activity = .initialising (n + 1)) :
    step s = .next (serveHost { s with activity := .initialising n }) :=
  step_of_settled (by simp only [nextEvent, h])

theorem step_of_completing {s : State} {w : Word} {old : Bool} {i : Instr} (h : s.activity = .running w old 0)
    (hd : decode w = .ok i) : step s = exec i s.release :=
  step_of_execute (by simp only [nextEvent, h, hd])

/-- Settles O12: an idle block serves the READ. -/
theorem readsHaveNoSideEffect : Obligations.ReadsHaveNoSideEffect := by
  intro s off rest hidle hh
  rw [step_of_idle hidle, serveHost_read hh]

/-! ### A CMD write (R65, R201) -/

theorem serveHost_cmdWrite_of_idle {s : State} {off : Offset} {v : Word} {rest : List HostAction}
    (hidle : s.activity = .idle) (hh : s.host = .write off v :: rest) (ho : off < 4) :
    serveHost s = State.takeCommand { s with host := rest } v := by
  have hb : State.busy { s with host := rest } = false := s.busy_false_iff.2 hidle
  rw [serveHost_write hh, memWrite, if_pos ((alignedOffset_eq_zero_iff off).2 ho), hb]
  rfl

theorem serveHost_cmdWrite_of_busy {s : State} {off : Offset} {v : Word} {rest : List HostAction}
    (hb : s.busy = true) (hh : s.host = .write off v :: rest) (ho : off < 4) :
    serveHost s = { s with host := rest, dropped := true } := by
  have hb : State.busy { s with host := rest } = true := hb
  rw [serveHost_write hh, memWrite, if_pos ((alignedOffset_eq_zero_iff off).2 ho), hb]
  rfl

/-- Only STATUS shows what the sequencer is doing. -/
theorem memRead_takeCommand_of_not_status {off : Offset} (h : alignedOffset off ≠ 4) (s : State) (w : Word) :
    memRead (s.takeCommand w) off = memRead s off := by
  simp only [memRead, if_neg h]
  rfl

/-- Setting the lowest bit of a word. -/
theorem append_true_eq_or_one {n : Nat} (x : BitVec n) :
    x ++ BitVec.ofBool true = (x ++ BitVec.ofBool false) ||| 1 := by
  apply BitVec.eq_of_getLsbD_eq
  intro i hi
  cases i with
  | zero => simp [BitVec.getLsbD_append]
  | succ i => simp [BitVec.getLsbD_append]

/-- A taken command shows in STATUS as BUSY alone (R24, R70, R236). -/
theorem statusWord_takeCommand {s : State} (h : s.activity = .idle) (w : Word) :
    (s.takeCommand w).statusWord = s.statusWord ||| 1 := by
  have hb : s.busy = false := s.busy_false_iff.2 h
  have hd : s.shownDropped = s.dropped := State.shownDropped_of_idle h
  simp only [State.statusWord, hb, hd]
  exact append_true_eq_or_one _

/-- Settles O14: an idle block takes the word (`serveHost_cmdWrite_of_idle`), a busy one drops it
(`serveHost_cmdWrite_of_busy`). -/
theorem cmdWriteIsTakenOrDropped : Obligations.CmdWriteIsTakenOrDropped := by
  intro s off v rest ho hh
  refine ⟨fun hidle => ?_, fun w old n ha => ?_, fun n ha => ?_⟩
  · have hstep := (step_of_idle hidle).trans (congrArg _ (serveHost_cmdWrite_of_idle hidle hh ho))
    refine ⟨_, _, hstep, rfl, fun r hr => ?_, statusWord_takeCommand (s := { s with host := rest }) hidle v⟩
    refine (memRead_takeCommand_of_not_status ?_ _ v).trans rfl
    simp only [BitVec.lt_def, BitVec.le_def, BitVec.reduceToNat] at hr
    unfold alignedOffset
    omega
  · exact (step_of_running ha).trans (congrArg _ (serveHost_cmdWrite_of_busy rfl hh ho))
  · exact (step_of_initialising ha).trans (congrArg _ (serveHost_cmdWrite_of_busy rfl hh ho))

/-! ### Accesses to a busy block (R70, R232, R236) -/

/-- Serving an action other than RST while the block is busy changes only DROPPED and the host's side, and only a READ puts a
word in the log. -/
theorem serveHost_frame_of_busy {s : State} {a : HostAction} {rest : List HostAction} (hb : s.busy = true)
    (hh : s.host = a :: rest) (ha : a ≠ .rst) :
    ∃ d host log, serveHost s = { s with dropped := d, host := host, readLog := log } ∧
      (∀ off, a = .read off → host = rest ∧ log = memRead s off :: s.readLog) ∧
      ((∀ off, a ≠ .read off) → log = s.readLog) := by
  cases a with
  | read off =>
    refine ⟨_, _, _, serveHost_read hh, fun off' h => ?_, fun h => absurd rfl (h off)⟩
    cases h
    exact ⟨rfl, rfl⟩
  | write off v =>
    rcases memWrite_cases { s with host := rest } off v with ⟨-, h⟩ | ⟨-, -, h⟩ | ⟨-, hidle, -⟩
    · exact ⟨_, _, _, (serveHost_write hh).trans h, nofun, fun _ => rfl⟩
    · exact ⟨_, _, _, (serveHost_write hh).trans h, nofun, fun _ => rfl⟩
    · exact absurd (hb.symm.trans hidle) (by decide)
  | wait => exact ⟨_, _, _, (serveHost_wait hh).trans (if_pos hb), nofun, fun _ => rfl⟩
  | readout => exact ⟨_, _, _, serveHost_readout hh, nofun, fun _ => rfl⟩
  | rst => exact absurd rfl ha

/-- While the block is busy STATUS shows neither the sticky bit DROPPED nor how long the block stays busy, so every register
reads on unchanged. -/
theorem memRead_of_busy_frame {s : State} {b : Nat → Activity}
    (hb : (∃ w old, b = .running w old) ∨ b = .initialising) {m : Nat} (hs : s.activity = b m) (n : Nat) (d : Bool)
    (host : List HostAction) (log : List Word) (off : Offset) :
    memRead { s with activity := b n, dropped := d, host := host, readLog := log } off = memRead s off := by
  refine memRead_of_same_status s (b n) d s.draws host log ?_ ?_ off
  · rcases hb with ⟨w, old, rfl⟩ | rfl
    · exact (State.busy_of_running hs).symm
    · exact (State.busy_of_initialising hs).symm
  · rcases hb with ⟨w, old, rfl⟩ | rfl
    · exact (State.shownDropped_of_running hs).symm
    · exact (State.shownDropped_of_initialising hs).symm

/-- Settles O15: the step serves the action (`serveHost_frame_of_busy`), and no register shows what that changed
(`memRead_of_busy_frame`). -/
theorem onlyDroppedChangesWhileRunning : Obligations.OnlyDroppedChangesWhileRunning := by
  intro s b n a rest hb hs hh ha
  have hserved : step s = .next (serveHost { s with activity := b n }) ∧ State.busy { s with activity := b n } = true := by
    rcases hb with ⟨w, old, rfl⟩ | rfl
    · exact ⟨step_of_running hs, rfl⟩
    · exact ⟨step_of_initialising hs, rfl⟩
  obtain ⟨hstep, hbusy⟩ := hserved
  obtain ⟨d, host, log, hserve, hread, hother⟩ := serveHost_frame_of_busy hbusy hh ha
  have hregs := memRead_of_busy_frame hb hs n
  refine ⟨_, hstep.trans (congrArg _ hserve), rfl, hregs d host log, fun off h => ?_, hother⟩
  obtain ⟨hhost, hlog⟩ := hread off h
  exact ⟨hhost, hlog.trans (congrArg (· :: s.readLog) (hregs s.dropped s.host s.readLog off))⟩

end Sys2Proof.Machine

/-! ## A host that waits after each command (R71, R96, R235) -/

namespace Sys2Proof.Machine

/-! ### Decoding an issued word (R81, R83) -/

theorem fieldsOf_word (f : CmdFields) : fieldsOf f.word = f := by
  obtain ⟨op, rsv, opd⟩ := f
  simp (disch := decide) only [fieldsOf, CmdFields.word, BitVec.extractLsb'_cast, BitVec.extractLsb'_append_eq_of_le,
    BitVec.extractLsb'_append_eq_of_add_le, BitVec.extractLsb'_eq_self, Nat.reduceSub]

theorem decode_encode (i : Instr) : decode (encode i) = .ok i := by
  simp only [decode, encode, fieldsOf_word]
  cases i <;> rfl

/-! ### A command does not look at the bus

The run of a script and the run of its commands differ in BUSY, in the draws taken and in the script still to come; no command
reads or changes these. -/

/-- The same registers with another bus side. -/
def State.withBus (s : State) (a : Activity) (draws : Nat) (host : List HostAction) : State :=
  { s with activity := a, draws := draws, host := host }

section WithBus

variable (s : State) (a : Activity) (d : Nat) (host : List HostAction)

theorem transact_withBus {body : State → Except TxnErr State}
    (hb : body (s.withBus a d host) = (body s).map (·.withBus a d host)) :
    transact body (s.withBus a d host) = (transact body s).withBus a d host := by
  have he : (s.withBus a d host).txnErr = s.txnErr := rfl
  rcases transact_cases body s with ⟨hf, h⟩ | ⟨hn, t, ht, h⟩ | ⟨hn, e, ht, h⟩
  · exact (transact_of_failed (s := s.withBus a d host) hf).trans (by rw [h])
  · rw [h, transact_of_ok (he.trans hn) (by rw [hb, ht]; rfl)]
  · rw [h, transact_of_error (he.trans hn) (by rw [hb, ht]; rfl)]
    rfl

theorem appendCode_withBus (x : Sym) :
    State.appendCode x (s.withBus a d host) = (s.appendCode x).map (·.withBus a d host) := by
  rcases s.appendCode_cases x with ⟨h0, h⟩ | ⟨h0, hfull, h⟩ | ⟨h0, hfit, h⟩ <;> rw [h]
  · exact State.appendCode_of_unknown h0
  · exact State.appendCode_of_full h0 hfull
  · exact State.appendCode_of_fits h0 hfit

theorem emit_withBus (v : Byte) : State.emit v (s.withBus a d host) = (s.emit v).map (·.withBus a d host) := by
  rcases s.emit_cases v with ⟨hfull, h⟩ | ⟨hlt, h⟩ <;> rw [h]
  · exact State.emit_of_full hfull
  · exact State.emit_of_lt hlt

theorem singleSymbolStep_withBus (b : Bool) :
    State.singleSymbolStep b (s.withBus a d host) = (s.singleSymbolStep b).map (·.withBus a d host) := by
  cases b with
  | true => rfl
  | false => exact emit_withBus s a d host (s.tb.nodeAt s.root).sym

theorem treeStep_withBus (b : Bool) :
    State.treeStep b (s.withBus a d host) = (s.treeStep b).map (·.withBus a d host) := by
  cases hleaf : (s.tb.nodeAt (s.tb.child s.cursor b)).isLeaf with
  | false => rw [State.treeStep_of_internal hleaf]; exact State.treeStep_of_internal hleaf
  | true =>
    by_cases hlt : s.workLen.toNat < Config.outCap
    · rw [State.treeStep_of_leaf hleaf hlt]; exact State.treeStep_of_leaf hleaf hlt
    · have hfull := Nat.le_of_not_lt hlt
      rw [State.treeStep_of_full hleaf hfull]; exact State.treeStep_of_full hleaf hfull

theorem takeToken_withBus (t : Byte) :
    State.takeToken t (s.withBus a d host) = (s.takeToken t).map (·.withBus a d host) := by
  by_cases h0 : s.nsym = 0
  · rw [State.takeToken_of_empty h0]; exact State.takeToken_of_empty (s := s.withBus a d host) h0 t
  cases hb : tokenBit t with
  | none => rw [State.takeToken_of_invalid h0 hb]; exact State.takeToken_of_invalid h0 hb
  | some b =>
    by_cases h1 : s.nsym = 1
    · rw [State.takeToken_of_single h1 hb, State.takeToken_of_single (s := s.withBus a d host) h1 hb,
        singleSymbolStep_withBus]
    · rw [State.takeToken_of_tree h0 h1 hb, State.takeToken_of_tree (s := s.withBus a d host) h0 h1 hb, treeStep_withBus]

theorem countSymbol_withBus (x : Sym) :
    State.countSymbol x (s.withBus a d host) = (s.countSymbol x).withBus a d host := by
  simp only [State.countSymbol, apply_ite (State.withBus · a d host)]
  rfl

theorem commit_withBus : (s.withBus a d host).commit = s.commit.withBus a d host := by
  simp only [State.commit, apply_ite (State.withBus · a d host)]
  rfl

theorem checkTruncated_withBus : (s.withBus a d host).checkTruncated = s.checkTruncated.withBus a d host := by
  simp only [State.checkTruncated, apply_ite (State.withBus · a d host)]
  rfl

theorem effect_withBus (i : Instr) : effect i (s.withBus a d host) = (effect i s).withBus a d host := by
  cases i with
  | clear | build | getCode _ | encBegin | decBegin => rfl
  | trainSym x => exact countSymbol_withBus s a d host x
  | encSym x => exact transact_withBus s a d host (appendCode_withBus s a d host x)
  | decBit t => exact transact_withBus s a d host (takeToken_withBus s a d host t)
  | encEnd => simp only [effect, commit_withBus]; rfl
  | decEnd => simp only [effect, checkTruncated_withBus, commit_withBus]; rfl

/-- Executing a command on another bus side gives the same outcome on that bus side. -/
theorem exec_withBus {i : Instr} {t : State} (h : exec i s = .next t) :
    exec i (s.withBus a d host) = .next (t.withBus a d host) := by
  rcases exec_cases h with ⟨hl, rfl⟩ | ⟨hl, rfl⟩
  · rw [exec_of_legal (s := s.withBus a d host) hl, ← effect_withBus]
    rfl
  · exact exec_of_illegal hl

end WithBus

/-- No command changes BUSY itself: the step that completes it does (R202). -/
theorem exec_activity {i : Instr} {s t : State} (h : exec i s = .next t) : t.activity = s.activity := by
  have hself : t = t.withBus s.activity s.draws s.host :=
    Host.Outcome.next.inj (h.symm.trans (exec_withBus s s.activity s.draws s.host h))
  exact (congrArg State.activity hself).trans rfl

theorem exec_next (i : Instr) (s : State) : ∃ t, exec i s = .next t :=
  exec_eq_effect i s ▸ accept_next i (effect i) s

/-! ### Runs -/

theorem run_add {m n : Nat} {s t : State} (h : core.run m s = .next t) : core.run (m + n) s = core.run n t := by
  induction m generalizing s with
  | zero => cases h; rw [Nat.zero_add]
  | succ m ih =>
    cases hs : core.step s with
    | next u =>
      rw [run_succ_of_next hs] at h
      rw [Nat.succ_add, run_succ_of_next hs, ih h]
    | fault r => exact nomatch r
    | refused r => simp only [Host.Core.run, hs] at h; cases h

/-- A WAIT lets the block stay busy for as long as it needs (R92). -/
theorem run_waiting (s : State) (w : Word) (old : Bool) (d : Nat) (host : List HostAction) (n : Nat) :
    core.run n (s.withBus (.running w old n) d (.wait :: host)) =
      .next (s.withBus (.running w old 0) d (.wait :: host)) := by
  induction n with
  | zero => rfl
  | succ n ih =>
    have hstep : step (s.withBus (.running w old (n + 1)) d (.wait :: host)) =
        .next (s.withBus (.running w old n) d (.wait :: host)) := rfl
    rw [run_succ_of_next hstep, ih]

/-- One issued command, from an idle block to the end of the WAIT: the write is taken, the block stays busy for as long as the
draw says, the command completes, and WAIT sees BUSY = 0. -/
theorem run_issue {i : Instr} {s t : State} (h : exec i s = .next t) (d : Nat) (host : List HostAction) :
    ∃ n, core.run n (s.withBus .idle d (issue i ++ host)) = .next (t.withBus .idle (d + 1) host) := by
  have htake : step (s.withBus .idle d (issue i ++ host)) =
      .next (s.withBus (.running (encode i) s.dropped (Config.tBusy d)) (d + 1) (.wait :: host)) := rfl
  have hwait := run_waiting s (encode i) s.dropped (d + 1) host (Config.tBusy d)
  have hdone : step (s.withBus (.running (encode i) s.dropped 0) (d + 1) (.wait :: host)) =
      .next (t.withBus .idle (d + 1) (.wait :: host)) :=
    (step_of_completing rfl (decode_encode i)).trans (exec_withBus s .idle (d + 1) (.wait :: host) h)
  have hgo : step (t.withBus .idle (d + 1) (.wait :: host)) = .next (t.withBus .idle (d + 1) host) := rfl
  refine ⟨Config.tBusy d + 2 + 1, ?_⟩
  rw [run_succ_of_next htake, run_add hwait, run_succ_of_next hdone, run_succ_of_next hgo, run_zero]

theorem execAll_cons_of_next {i : Instr} {is : List Instr} {s t : State} (h : exec i s = .next t) :
    execAll (i :: is) s = execAll is t := by
  simp only [execAll, h]

/-- A list of issued commands: the machine comes to what executing them gives, one draw per command later. -/
theorem run_issues (is : List Instr) {s : State} (hs : s.activity = .idle) (d : Nat) (host : List HostAction) :
    ∃ n u, execAll is s = .next u ∧ u.activity = .idle ∧
      core.run n (s.withBus .idle d (is.flatMap issue ++ host)) = .next (u.withBus .idle (d + is.length) host) := by
  induction is generalizing s d with
  | nil => exact ⟨0, s, rfl, hs, rfl⟩
  | cons i is ih =>
    obtain ⟨t, ht⟩ := exec_next i s
    obtain ⟨m, hm⟩ := run_issue ht d (is.flatMap issue ++ host)
    obtain ⟨n, u, hu, hidle, hn⟩ := ih ((exec_activity ht).trans hs) (d + 1)
    refine ⟨m + n, u, (execAll_cons_of_next ht).trans hu, hidle, ?_⟩
    rw [List.flatMap_cons, List.append_assoc, run_add hm, hn, List.length_cons, Nat.add_right_comm, Nat.add_assoc]

/-- Settles O20, by induction on the commands (`run_issues`). -/
theorem waitingHostRunsCommandsInOrder : Obligations.WaitingHostRunsCommandsInOrder := by
  intro is s rest hs hh
  obtain ⟨n, u, hu, hidle, hn⟩ := run_issues is hs s.draws rest
  have hself : s.withBus .idle s.draws (is.flatMap issue ++ rest) = s := by rw [← hs, ← hh]; rfl
  refine ⟨n, _, u, hself ▸ hn, hu, ?_⟩
  rw [State.withBus, ← hidle]

end Sys2Proof.Machine

/-! ## Command words (R81 to R85, R89, R90) -/

namespace Sys2Proof

open Machine

/-! ### Legal and illegal fields (R84, R85)

A word with an illegal field fails one of the decoder's checks; any other word is the encoding of a command. With
`decode_encode` these two facts settle what the decoder answers on every word. -/

/-- One of R85's causes holds for a word with these fields. -/
def CmdFields.illegal (f : CmdFields) : Prop :=
  f.op = 0x00 ∨ 0x0B ≤ f.op ∨ f.rsv ≠ 0 ∨ (f.op ∈ [0x01, 0x03, 0x05, 0x07, 0x08, 0x0A] ∧ f.opd ≠ 0)

theorem word_fieldsOf (w : Word) : (fieldsOf w).word = w := by
  simp only [fieldsOf, CmdFields.word, BitVec.cast_eq]
  rw [BitVec.extractLsb'_append_extractLsb'_eq_extractLsb' (by rfl),
    BitVec.extractLsb'_append_extractLsb'_eq_extractLsb' (by rfl)]
  exact BitVec.extractLsb'_eq_self

theorem opcode_cases : ∀ op : BitVec 8, op ≠ 0 → op < 0x0B →
    op ∈ [0x02, 0x04, 0x06, 0x09] ∨ op ∈ [0x01, 0x03, 0x05, 0x07, 0x08, 0x0A] := by
  decide

theorem exists_fields_eq {f : CmdFields} (h : ¬ f.illegal) : ∃ i : Instr, i.fields = f := by
  obtain ⟨op, rsv, opd⟩ := f
  simp only [CmdFields.illegal, not_or, not_and, not_not, BitVec.not_le] at h
  obtain ⟨hne, hlt, rfl, hopd⟩ := h
  obtain hop | hop := opcode_cases op hne hlt
  · simp only [List.mem_cons, List.not_mem_nil, or_false] at hop
    obtain rfl | rfl | rfl | rfl := hop
    exacts [⟨.trainSym opd, rfl⟩, ⟨.getCode opd, rfl⟩, ⟨.encSym opd, rfl⟩, ⟨.decBit opd, rfl⟩]
  · obtain rfl := hopd hop
    simp only [List.mem_cons, List.not_mem_nil, or_false] at hop
    obtain rfl | rfl | rfl | rfl | rfl | rfl := hop
    exacts [⟨.clear, rfl⟩, ⟨.build, rfl⟩, ⟨.encBegin, rfl⟩, ⟨.encEnd, rfl⟩, ⟨.decBegin, rfl⟩, ⟨.decEnd, rfl⟩]

theorem exists_encode_eq {w : Word} (h : ¬ (fieldsOf w).illegal) : ∃ i, encode i = w := by
  obtain ⟨i, hi⟩ := exists_fields_eq h
  exact ⟨i, by rw [encode, hi, word_fieldsOf]⟩

theorem decode_of_illegal {w : Word} (h : (fieldsOf w).illegal) : ∃ e, decode w = .error e := by
  rw [decode]
  split_ifs with hop hrsv hopd
  · exact ⟨_, rfl⟩
  · exact ⟨_, rfl⟩
  · exact ⟨_, rfl⟩
  · obtain h | h | h | h := h
    exacts [absurd (.inl h) hop, absurd (.inr h) hop, absurd h hrsv, absurd (by simpa using h) hopd]

/-! ### The decoder inverts the encoder (R83, R90) -/

theorem decode_eq_ok_iff {w : Word} {i : Instr} : decode w = .ok i ↔ encode i = w := by
  refine ⟨fun h => ?_, fun h => h ▸ decode_encode i⟩
  by_cases hf : (fieldsOf w).illegal
  · obtain ⟨e, he⟩ := decode_of_illegal hf
    cases h.symm.trans he
  · obtain ⟨j, rfl⟩ := exists_encode_eq hf
    rw [Except.ok.inj ((decode_encode j).symm.trans h)]

/-- Settles O2: the two directions of `decode_eq_ok_iff`. -/
theorem decodeAndEncodeAgree : Obligations.DecodeAndEncodeAgree :=
  ⟨decode_encode, fun _ _ => decode_eq_ok_iff.1⟩

/-! ### Illegal words (R85, R203) -/

theorem decode_error_iff {w : Word} : (∃ e, decode w = .error e) ↔ (fieldsOf w).illegal := by
  refine ⟨fun ⟨e, he⟩ => by_contra fun hf => ?_, decode_of_illegal⟩
  obtain ⟨i, rfl⟩ := exists_encode_eq hf
  cases (decode_encode i).symm.trans he

theorem Machine.step_of_illegal {s : State} {w : Word} {old : Bool} {e : IllegalWord}
    (h : s.activity = .running w old 0) (hd : decode w = .error e) :
    step s = .next (s.release.raiseCmdError .illegalCommand) :=
  step_of_settled (by simp only [nextEvent, h, hd])

/-- Settles O3: the causes by `decode_error_iff`, the completing step by `step_of_illegal`. -/
theorem illegalWordsAreRejected : Obligations.IllegalWordsAreRejected :=
  fun _ => ⟨decode_error_iff, fun _ _ h ⟨_, hd⟩ => step_of_illegal h hd⟩

/-! ### Counting the legal words (R89) -/

/-- The four commands with operand `x` (R82). -/
def operandForms (x : Byte) : List Instr :=
  [.trainSym x, .getCode x, .encSym x, .decBit x]

/-- The six commands without an operand (R84). -/
def bareForms : List Instr :=
  [.clear, .build, .encBegin, .encEnd, .decBegin, .decEnd]

/-- Every command with every operand (R89). -/
def allInstrs : List Instr :=
  allSyms.flatMap operandForms ++ bareForms

theorem mem_allInstrs (i : Instr) : i ∈ allInstrs := by
  cases i <;> simp [allInstrs, operandForms, bareForms, mem_allSyms]

theorem length_allInstrs : allInstrs.length = 4 * 256 + 6 := by
  have hforms (l : List Sym) : (l.flatMap operandForms).length = 4 * l.length := by
    simp [List.length_flatMap, operandForms, Nat.mul_comm]
  rw [allInstrs, List.length_append, hforms, length_allSyms]
  rfl

theorem disjoint_operandForms {x y : Byte} (h : x ≠ y) : (operandForms x).Disjoint (operandForms y) := by
  simp [operandForms, h.symm]

theorem disjoint_operandForms_bareForms (x : Byte) : (operandForms x).Disjoint bareForms := by
  simp [operandForms, bareForms]

theorem nodup_allInstrs : allInstrs.Nodup := by
  have hforms : (allSyms.flatMap operandForms).Nodup :=
    List.nodup_flatMap.2 ⟨fun x _ => by simp [operandForms],
      allSyms_pairwise_lt.imp fun hlt => disjoint_operandForms (BitVec.ne_of_lt hlt)⟩
  refine hforms.append (by decide) fun i hi => ?_
  obtain ⟨x, -, hx⟩ := List.mem_flatMap.1 hi
  exact fun hb => disjoint_operandForms_bareForms x hx hb

theorem encode_injective : Function.Injective encode := fun i _ h =>
  Except.ok.inj ((decode_encode i).symm.trans (decode_eq_ok_iff.2 h.symm))

/-- Settles O4: the words of `allInstrs`, since the encoder repeats no word and reaches every legal one. -/
theorem legalWordsAreCounted : Obligations.LegalWordsAreCounted :=
  ⟨allInstrs.map encode, nodup_allInstrs.map encode_injective, List.length_map encode ▸ length_allInstrs,
    fun w => by simp only [List.mem_map, mem_allInstrs, true_and, decode_eq_ok_iff]⟩

/-! ### Words of the opcode map (R83) -/

/-- Settles O1: the first ten words are the encodings of their commands, the last four fail a check each. -/
theorem wordsOfTheOpcodeMapDecode : Obligations.WordsOfTheOpcodeMapDecode :=
  ⟨decode_encode .clear, decode_encode (.trainSym 0x61), decode_encode .build, decode_encode (.getCode 0xFF),
    decode_encode .encBegin, decode_encode (.encSym 0x63), decode_encode .encEnd, decode_encode .decBegin,
    decode_encode (.decBit 0x31), decode_encode .decEnd, rfl, rfl, rfl, rfl⟩

/-! ### Lines of a listing (R91) -/

theorem assemble_some (m : Mnemonic) (o : AsmOperand) :
    assemble ⟨m, some o⟩ = if m.takesOperand && o.wf then some (m.instr o.value) else none := rfl

theorem assemble_none (m : Mnemonic) :
    assemble ⟨m, none⟩ = if !m.takesOperand then some (m.instr 0) else none := rfl

theorem assemble_of_wf {m : Mnemonic} {o : AsmOperand} (hm : m.takesOperand = true) (ho : o.wf = true) :
    assemble ⟨m, some o⟩ = some (m.instr o.value) := by
  simp [assemble_some, hm, ho]

theorem assemble_of_not_wf (m : Mnemonic) {o : AsmOperand} (ho : ¬ o.wf = true) : assemble ⟨m, some o⟩ = none := by
  simp [assemble_some, ho]

theorem AsmOperand.wf_hex (n : Nat) : AsmOperand.wf (.hex n) = true ↔ n < 256 := decide_eq_true_iff

theorem AsmOperand.wf_dec (n : Nat) : AsmOperand.wf (.dec n) = true ↔ n < 256 := decide_eq_true_iff

theorem AsmOperand.wf_char (c : Char) : AsmOperand.wf (.char c) = true ↔ c.toNat < 128 := decide_eq_true_iff

/-- Settles O5: an operand that is well formed (`wf_hex`, `wf_dec`, `wf_char`) gives the command with its byte, any other
operand nothing. -/
theorem listingOperandsNameOneByte : Obligations.ListingOperandsNameOneByte := by
  refine ⟨fun n hn m hm => ⟨?_, ?_⟩, fun m c hm hc => ?_, fun m hm => ?_, fun m hm => ?_, fun m o hm => ?_,
    fun m n hn => ⟨?_, ?_⟩, fun m c hc => ?_⟩
  · exact assemble_of_wf hm ((AsmOperand.wf_hex n).2 hn)
  · exact assemble_of_wf hm ((AsmOperand.wf_dec n).2 hn)
  · exact assemble_of_wf hm ((AsmOperand.wf_char c).2 hc)
  · simp [assemble_none, hm]
  · simp [assemble_none, hm]
  · simp [assemble_some, hm]
  · exact assemble_of_not_wf m (mt (AsmOperand.wf_hex n).1 (Nat.not_lt.2 hn))
  · exact assemble_of_not_wf m (mt (AsmOperand.wf_dec n).1 (Nat.not_lt.2 hn))
  · exact assemble_of_not_wf m (mt (AsmOperand.wf_char c).1 (Nat.not_lt.2 hc))

end Sys2Proof

/-! ## CLEAR and TRAIN_SYM (R101, R105 to R107) -/

namespace Sys2Proof.Machine

/-! ### CLEAR (R101) -/

/-- A cleared block reads like a reset one: it differs in the bus's side and in elements that no register shows (R45). -/
theorem memRead_clearModel {s : State} (ha : s.activity = .idle) (off : Offset) :
    memRead s.accepted.clearModel off = memRead { State.reset with activity := .idle } off := by
  have hagrees : State.agrees { State.reset with
      activity := .idle, draws := s.draws, host := s.host, readLog := s.readLog } s.accepted.clearModel := by
    refine ⟨?_, rfl, rfl, fun i hi => absurd hi (Nat.not_lt_zero i), fun hp => absurd rfl hp⟩
    rw [← ha]
    rfl
  rw [← hagrees.memRead_eq off]
  exact memRead_of_same_status { State.reset with activity := .idle } .idle false s.draws s.host s.readLog rfl rfl off

/-- Settles O26: the cleared state by `exec_of_legal`, its registers by `memRead_clearModel`. -/
theorem clearDiscardsModelAndResults : Obligations.ClearDiscardsModelAndResults := by
  refine ⟨fun w => decode_eq_ok_iff.trans eq_comm, fun s => ⟨s.accepted.clearModel, exec_of_legal rfl, fun x => ?_,
    rfl, rfl, rfl, rfl, rfl, rfl, rfl, rfl, rfl, rfl, rfl, rfl, rfl, rfl, rfl, rfl, rfl, rfl, rfl, rfl, rfl, rfl,
    fun ha => memRead_clearModel ha⟩⟩
  exact ⟨reset_freqOf x, CodeTable.lenOf_empty x, CodeTable.bitsOf_empty x⟩

/-! ### Counting one occurrence (R105) -/

/-- FREQ[x] and TOTAL each go up by one. -/
def State.countOne (x : Sym) (s : State) : State :=
  { s with freq := s.freq.set x.toNat (s.freqOf x + 1) x.isLt, total := s.total + 1 }

theorem countSymbol_of_room {s : State} (h : s.total ≠ 0xFFFFFFFF) (x : Sym) : s.countSymbol x = s.countOne x :=
  if_neg h

theorem countSymbol_of_full {s : State} (h : s.total = 0xFFFFFFFF) (x : Sym) :
    s.countSymbol x = s.raiseCmdError .trainOverflow :=
  if_pos h

theorem freqOf_countOne_self (s : State) (x : Sym) : (s.countOne x).freqOf x = s.freqOf x + 1 :=
  s.freqOf_setFreq_self x _

theorem freqOf_countOne_of_ne (s : State) {x y : Sym} (h : y ≠ x) : (s.countOne x).freqOf y = s.freqOf y :=
  s.freqOf_setFreq_of_ne h _

theorem countOne_countOne_of_ne (s : State) {x y : Sym} (h : y ≠ x) :
    (s.countOne x).countOne y = { s with
      freq := (s.freq.set x.toNat (s.freqOf x + 1) x.isLt).set y.toNat (s.freqOf y + 1) y.isLt
      total := s.total + 1 + 1 } := by
  rw [← freqOf_countOne_of_ne s h]
  rfl

/-- The order of two counted symbols does not matter (R107). -/
theorem countOne_comm (s : State) (x y : Sym) : (s.countOne x).countOne y = (s.countOne y).countOne x := by
  by_cases h : y = x
  · rw [h]
  · have hne : x.toNat ≠ y.toNat := fun hxy => h (BitVec.eq_of_toNat_eq hxy.symm)
    rw [countOne_countOne_of_ne s h, countOne_countOne_of_ne s (Ne.symm h), Vector.set_comm _ _ hne]

/-! ### TOTAL is the sum of the counts (R32, R106) -/

theorem State.countsAgree.congr {s t : State} (h : s.countsAgree) (hf : t.freq = s.freq) (ht : t.total = s.total) :
    t.countsAgree := by
  simpa only [State.countsAgree, State.freqOf, hf, ht] using h

/-- One symbol's share of a sum over all symbols. -/
theorem sum_map_allSyms (f : Sym → Nat) (x : Sym) :
    (allSyms.map f).sum = f x + ((allSyms.erase x).map f).sum :=
  (List.sum_map_erase f (mem_allSyms x)).symm

theorem mem_erase_allSyms {x y : Sym} : y ∈ allSyms.erase x ↔ y ≠ x := by
  have hnodup : allSyms.Nodup := allSyms_pairwise_lt.imp BitVec.ne_of_lt
  rw [hnodup.mem_erase_iff, and_iff_left (mem_allSyms y)]

theorem State.countsAgree.freqOf_le_total {s : State} (h : s.countsAgree) (x : Sym) :
    (s.freqOf x).toNat ≤ s.total.toNat := by
  rw [h, sum_map_allSyms _ x]
  exact Nat.le_add_right _ _

/-- Below 0xFFFF_FFFF adding one does not wrap. -/
theorem count_succ_toNat {n m : Count} (h : n.toNat ≤ m.toNat) (hm : m ≠ 0xFFFFFFFF) : (n + 1).toNat = n.toNat + 1 := by
  bv_omega

/-- No increment of TRAIN_SYM wraps (R106). -/
theorem State.countsAgree.countOne_toNat {s : State} (h : s.countsAgree) (ht : s.total ≠ 0xFFFFFFFF) (x : Sym) :
    ((s.countOne x).freqOf x).toNat = (s.freqOf x).toNat + 1 ∧ (s.countOne x).total.toNat = s.total.toNat + 1 :=
  ⟨freqOf_countOne_self s x ▸ count_succ_toNat (h.freqOf_le_total x) ht, count_succ_toNat le_rfl ht⟩

theorem State.countsAgree.countOne {s : State} (h : s.countsAgree) (ht : s.total ≠ 0xFFFFFFFF) (x : Sym) :
    (s.countOne x).countsAgree := by
  obtain ⟨hfreq, htotal⟩ := h.countOne_toNat ht x
  have hrest : (allSyms.erase x).map (fun y => ((s.countOne x).freqOf y).toNat) =
      (allSyms.erase x).map fun y => (s.freqOf y).toNat :=
    List.map_congr_left fun y hy => by rw [freqOf_countOne_of_ne s (mem_erase_allSyms.1 hy)]
  have hsum := h.trans (sum_map_allSyms _ x)
  rw [State.countsAgree, sum_map_allSyms _ x, hrest, hfreq, htotal, hsum]
  omega

theorem State.countsAgree.countSymbol {s : State} (h : s.countsAgree) (x : Sym) : (s.countSymbol x).countsAgree := by
  by_cases ht : s.total = 0xFFFFFFFF
  · rw [countSymbol_of_full ht]; exact h
  · rw [countSymbol_of_room ht]; exact h.countOne ht x

/-- CLEAR goes back to no counts, TRAIN_SYM adds one to both sides, and no other command touches them (R106). -/
theorem State.countsAgree.effect {i : Instr} {s : State} (h : s.countsAgree) : (effect i s).countsAgree := by
  cases i with
  | clear => exact reset_countsAgree
  | trainSym x => exact h.countSymbol x
  | build | getCode _ | encBegin | decBegin => exact h
  | encSym x => obtain ⟨m, k, e, he, -⟩ := effect_encSym_frame x s; rw [he]; exact h
  | decBit t => obtain ⟨m, k, c, e, he, -⟩ := effect_decBit_frame t s; rw [he]; exact h
  | encEnd => exact h.congr s.commit_freq s.commit_total
  | decEnd =>
    exact h.congr (s.checkTruncated.commit_freq.trans s.checkTruncated_freq)
      (s.checkTruncated.commit_total.trans s.checkTruncated_total)

/-- Settles O52: every effect keeps the sum (`State.countsAgree.effect`), and at reset it is 0. -/
theorem stepKeepsTotalTheSumOfCounts : Obligations.StepKeepsTotalTheSumOfCounts := by
  intro s t hs h
  refine step_keeps (P := State.countsAgree) ?_ (fun _ => reset_countsAgree) (fun i s _ hs => hs.effect) hs h
  rintro s t ⟨_, _, _, _, _, _, rfl⟩ hs
  exact hs

/-! ### TRAIN_SYM (R105, R107) -/

/-- A word with RSV = 0 has its opcode on top and its operand at the bottom (R81, R83). -/
theorem word_eq_or (op opd : BitVec 8) :
    CmdFields.word ⟨op, 0, opd⟩ = (op ++ (0 : BitVec 24)) ||| opd.zeroExtend 32 := by
  have hpad : op ++ (0 : BitVec 24) = op ++ (0 : BitVec 16) ++ (0 : BitVec 8) := by
    rw [BitVec.append_assoc]; rfl
  refine BitVec.eq_of_getLsbD_eq fun i hi => ?_
  simp only [CmdFields.word, BitVec.cast_eq, hpad, BitVec.getLsbD_append, BitVec.getLsbD_or, BitVec.getLsbD_setWidth]
  by_cases h : i < 8
  · simp [h, hi]
  · simp [h, opd.getLsbD_of_ge i (Nat.not_lt.1 h)]

theorem encode_trainSym (x : Sym) : encode (.trainSym x) = 0x02000000 ||| x.zeroExtend 32 :=
  word_eq_or 0x02 x

theorem exec_trainSym_of_room {s : State} (hp : s.phase = .train) (ht : s.total ≠ 0xFFFFFFFF) (x : Sym) :
    exec (.trainSym x) s = .next (s.accepted.countOne x) :=
  (exec_of_legal (by rw [hp]; rfl)).trans (congrArg _ (countSymbol_of_room (s := s.accepted) ht x))

theorem exec_trainSym_of_full {s : State} (hp : s.phase = .train) (ht : s.total = 0xFFFFFFFF) (x : Sym) :
    exec (.trainSym x) s = .next { s with cmdErr := .trainOverflow } :=
  (exec_of_legal (by rw [hp]; rfl)).trans (congrArg _ (countSymbol_of_full (s := s.accepted) ht x))

theorem exec_trainSym_of_ne_train {s : State} (hp : s.phase ≠ .train) (x : Sym) :
    exec (.trainSym x) s = .next { s with cmdErr := .badPhase } :=
  exec_of_illegal (beq_eq_false_iff_ne.2 hp)

/-- Settles O27: the three outcomes by the lemmas above, and no wrap by `State.countsAgree.countOne_toNat`. -/
theorem trainSymCountsOneOccurrence : Obligations.TrainSymCountsOneOccurrence := by
  intro x
  refine ⟨fun w => ?_, fun s => ⟨fun hp ht => ?_, fun hp ht => exec_trainSym_of_full hp ht x,
    fun hp => exec_trainSym_of_ne_train hp x⟩⟩
  · rw [decode_eq_ok_iff, encode_trainSym, eq_comm]
  · exact ⟨_, exec_trainSym_of_room hp ht x, freqOf_countOne_self _ x, fun y hy => freqOf_countOne_of_ne _ hy, rfl,
      fun h => State.countsAgree.countOne_toNat (s := s.accepted) h ht x⟩

theorem execAll_trainSym_pair {s : State} (hp : s.phase = .train) (ht : s.total.toNat + 2 ≤ 0xFFFFFFFF) (x y : Sym) :
    execAll [.trainSym x, .trainSym y] s = .next ((s.accepted.countOne x).countOne y) := by
  have ht0 : s.total ≠ 0xFFFFFFFF := by bv_omega
  have ht1 : s.total + 1 ≠ 0xFFFFFFFF := by bv_omega
  rw [execAll_cons_of_next (exec_trainSym_of_room hp ht0 x),
    execAll_cons_of_next (exec_trainSym_of_room (s := s.accepted.countOne x) hp ht1 y)]
  rfl

theorem execAll_trainSym_pair_of_ne_train {s : State} (hp : s.phase ≠ .train) (x y : Sym) :
    execAll [.trainSym x, .trainSym y] s = .next { s with cmdErr := .badPhase } := by
  rw [execAll_cons_of_next (exec_trainSym_of_ne_train hp x),
    execAll_cons_of_next (exec_trainSym_of_ne_train (s := { s with cmdErr := .badPhase }) hp y)]
  rfl

/-- Settles O28: in TRAIN by `countOne_comm`; elsewhere both runs are rejected twice. -/
theorem trainSymsCommute : Obligations.TrainSymsCommute := by
  intro s x y ht
  by_cases hp : s.phase = .train
  · exact ⟨_, execAll_trainSym_pair hp ht x y, countOne_comm s.accepted x y ▸ execAll_trainSym_pair hp ht y x⟩
  · exact ⟨_, execAll_trainSym_pair_of_ne_train hp x y, execAll_trainSym_pair_of_ne_train hp y x⟩

end Sys2Proof.Machine

/-! ## The built tree and its paths (R121, R130, R133, R136) -/

namespace Sys2Proof.Machine

/-! ### The built leaves (R121) -/

theorem count_pos_iff {n : Count} : 0 < n ↔ n ≠ 0 := by
  bv_omega

theorem exec_build_of_train {s : State} (hp : s.phase = .train) : exec .build s = .next s.accepted.buildModel :=
  exec_of_legal (by rw [hp]; rfl)

theorem eq_buildModel_of_exec {s t : State} (hp : s.phase = .train) (h : exec .build s = .next t) :
    t = s.accepted.buildModel := by
  rw [exec_build_of_train hp] at h
  cases h
  rfl

/-- A node below NSYM is the leaf of a symbol present, with its count. -/
theorem buildModel_leaf (s : State) (k : NodeIdx) (hk : k.toNat < s.buildModel.nsym.toNat) :
    (s.buildModel.tb.nodeAt k).isLeaf = true ∧
      (s.buildModel.tb.nodeAt k).weight = s.freqOf (s.buildModel.tb.nodeAt k).sym ∧
        s.freqOf (s.buildModel.tb.nodeAt k).sym ≠ 0 := by
  rw [buildModel_nsym_toNat] at hk
  obtain ⟨hleaf, hsym, hw⟩ := buildTree_nodeAt_of_leaf s.freqOf s.tb k hk
  rw [State.buildModel_tb, hsym, hw]
  exact ⟨hleaf, rfl, count_pos_iff.1 (mem_presentSyms.1 (List.getElem_mem hk)).2⟩

theorem buildModel_leaf_order (s : State) {j k : NodeIdx} (hjk : j < k) (hk : k.toNat < s.buildModel.nsym.toNat) :
    (s.buildModel.tb.nodeAt j).sym < (s.buildModel.tb.nodeAt k).sym := by
  rw [buildModel_nsym_toNat] at hk
  have hjk : j.toNat < k.toNat := hjk
  obtain ⟨-, hj, -⟩ := buildTree_nodeAt_of_leaf s.freqOf s.tb j (by omega)
  obtain ⟨-, hk', -⟩ := buildTree_nodeAt_of_leaf s.freqOf s.tb k hk
  rw [State.buildModel_tb, hj, hk']
  exact List.pairwise_iff_getElem.1 (presentSyms_pairwise_lt s.freqOf) _ _ _ _ hjk

theorem buildModel_leaf_of_present (s : State) {x : Sym} (hx : s.freqOf x ≠ 0) :
    ∃ k : NodeIdx, k.toNat < s.buildModel.nsym.toNat ∧ (s.buildModel.tb.nodeAt k).sym = x := by
  obtain ⟨i, hi, rfl⟩ := List.getElem_of_mem (mem_presentSyms.2 ⟨mem_allSyms x, count_pos_iff.2 hx⟩)
  have hidx : (BitVec.ofNat 9 i).toNat = i :=
    toNat_nodeIdx_ofNat (by have := length_presentSyms_le s.freqOf; omega)
  obtain ⟨-, hsym, -⟩ := buildTree_nodeAt_of_leaf s.freqOf s.tb (BitVec.ofNat 9 i) (hidx.symm ▸ hi)
  refine ⟨BitVec.ofNat 9 i, by rwa [buildModel_nsym_toNat, hidx], ?_⟩
  simp only [State.buildModel_tb, hsym, hidx]

/-- Settles O33, from the three lemmas on the built leaves. -/
theorem buildMakesLeavesInSymbolOrder : Obligations.BuildMakesLeavesInSymbolOrder := by
  intro s t hp h
  obtain rfl := eq_buildModel_of_exec hp h
  exact ⟨buildModel_leaf s.accepted, fun _ _ => buildModel_leaf_order s.accepted,
    fun _ => buildModel_leaf_of_present s.accepted⟩

/-! ### Paths (R130) -/

theorem TreeBuilder.follow_cons_of_internal {b : TreeBuilder} {x : NodeIdx} (h : (b.nodeAt x).isLeaf = false) (c : Bool)
    (p : List Bool) : b.follow (c :: p) x = b.follow p (b.child x c) := by
  simp [TreeBuilder.follow, h]

theorem TreeBuilder.follow_cons_eq_some {b : TreeBuilder} {x k : NodeIdx} {c : Bool} {p : List Bool} :
    b.follow (c :: p) x = some k ↔ (b.nodeAt x).isLeaf = false ∧ b.follow p (b.child x c) = some k := by
  simp [TreeBuilder.follow]

/-- From a leaf only the empty path leads anywhere. -/
theorem TreeBuilder.eq_nil_of_follow_leaf {b : TreeBuilder} {x k : NodeIdx} {p : List Bool}
    (hx : (b.nodeAt x).isLeaf = true) (h : b.follow p x = some k) : p = [] := by
  cases p with
  | nil => rfl
  | cons c p =>
    obtain ⟨hint, -⟩ := TreeBuilder.follow_cons_eq_some.1 h
    exact absurd (hx.symm.trans hint) (by decide)

theorem TreeBuilder.follow_append (b : TreeBuilder) (p q : List Bool) (x : NodeIdx) :
    b.follow (p ++ q) x = (b.follow p x).bind (b.follow q) := by
  induction p generalizing x with
  | nil => rfl
  | cons c p ih =>
    simp only [List.cons_append, TreeBuilder.follow]
    split
    · rfl
    · exact ih _

/-- A path that ends with the step `c` comes through an internal node. -/
theorem TreeBuilder.follow_concat_eq_some {b : TreeBuilder} {x k : NodeIdx} {c : Bool} {p : List Bool} :
    b.follow (p ++ [c]) x = some k ↔ ∃ j, b.follow p x = some j ∧ (b.nodeAt j).isLeaf = false ∧ b.child j c = k := by
  simp only [TreeBuilder.follow_append, Option.bind_eq_some_iff, TreeBuilder.follow_cons_eq_some]
  simp only [TreeBuilder.follow, Option.some.injEq]

/-- The shape of a tree of `n` leaves (R41): leaves first, children before their parents, and one parent for every node but the
root, which is the last one. -/
structure TreeBuilder.IsTree (n : Nat) (root : NodeIdx) (b : TreeBuilder) : Prop where
  n_pos : 1 ≤ n
  n_le : n ≤ 256
  root_eq : root.toNat = 2 * n - 2
  leaf : ∀ k : NodeIdx, k.toNat < n → (b.nodeAt k).isLeaf = true
  internal : ∀ k : NodeIdx, n ≤ k.toNat → k.toNat < 2 * n - 1 → (b.nodeAt k).isLeaf = false
  child_lt : ∀ (k : NodeIdx) (c : Bool), n ≤ k.toNat → k.toNat < 2 * n - 1 → (b.child k c).toNat < k.toNat
  exists_parent : ∀ k : NodeIdx, k.toNat < 2 * n - 2 →
    ∃ (p : NodeIdx) (c : Bool), n ≤ p.toNat ∧ p.toNat < 2 * n - 1 ∧ b.child p c = k
  one_parent : ∀ (p q : NodeIdx) (c d : Bool), n ≤ p.toNat → p.toNat < 2 * n - 1 → n ≤ q.toNat → q.toNat < 2 * n - 1 →
    b.child p c = b.child q d → p = q ∧ c = d

/-- From at least one symbol BUILD makes a tree, whatever the counts' sum. -/
theorem buildTree_isTree {freq : Sym → Count} (h : (presentSyms freq allSyms).length ≠ 0) (b : TreeBuilder) :
    (buildTree freq b).tb.IsTree (presentSyms freq allSyms).length (buildTree freq b).root := by
  have F := mergedStore_forest freq b
  have hchild (k : NodeIdx) (c : Bool) : (buildTree freq b).tb.child k c = (mergedStore freq b).child k c := by
    simp only [TreeBuilder.child, buildTree_nodeAt h]
  have hlt {k : NodeIdx} := lt_mergedStore_next h b (k := k)
  constructor
  case n_pos => omega
  case n_le => exact length_presentSyms_le freq
  case root_eq => exact toNat_buildTreeRoot freq b
  case leaf => exact fun k hk => (buildTree_nodeAt_of_leaf freq b k hk).1
  case internal =>
    intro k hn hk
    rw [buildTree_nodeAt h]
    exact (F.internal k hn (hlt.2 hk)).1
  case child_lt =>
    intro k c hn hk
    rw [hchild]
    exact F.child_lt k hn (hlt.2 hk) c
  case exists_parent =>
    intro k hk
    have hroot : k ∉ (mergedStore freq b).entries := by
      rw [mergedStore_entries h, List.mem_singleton]
      rintro rfl
      rw [toNat_buildTreeRoot] at hk
      omega
    obtain ⟨p, c, hn, hp, hpk⟩ := F.exists_parent (hlt.2 (by omega)) hroot
    exact ⟨p, c, hn, hlt.1 hp, (hchild p c).trans hpk⟩
  case one_parent =>
    intro p q c d hpn hp hqn hq hpq
    rw [hchild, hchild] at hpq
    exact F.one_parent p q c d hpn (hlt.2 hp) hqn (hlt.2 hq) hpq

namespace TreeBuilder.IsTree

variable {n : Nat} {root : NodeIdx} {b : TreeBuilder} (T : b.IsTree n root)
include T

theorem root_lt : root.toNat < 2 * n - 1 := by
  have := T.root_eq; have := T.n_pos; omega

theorem le_of_internal {k : NodeIdx} (h : (b.nodeAt k).isLeaf = false) : n ≤ k.toNat :=
  Nat.le_of_not_lt fun hk => absurd ((T.leaf k hk).symm.trans h) (by decide)

theorem lt_of_leaf {k : NodeIdx} (hk : k.toNat < 2 * n - 1) (h : (b.nodeAt k).isLeaf = true) : k.toNat < n :=
  Nat.lt_of_not_le fun hn => absurd ((T.internal k hn hk).symm.trans h) (by decide)

/-- A path stays in the tree. -/
theorem follow_lt {p : List Bool} {x k : NodeIdx} (hx : x.toNat < 2 * n - 1) (h : b.follow p x = some k) :
    k.toNat < 2 * n - 1 := by
  induction p generalizing x with
  | nil => cases h; exact hx
  | cons c p ih =>
    obtain ⟨hint, hp⟩ := follow_cons_eq_some.1 h
    have := T.child_lt x c (T.le_of_internal hint) hx
    exact ih (by omega) hp

/-- Each step of a path but the last one leads to a lower internal node (R12). -/
theorem length_path_le {p : List Bool} {x k : NodeIdx} (hx : x.toNat < 2 * n - 1) (h : b.follow p x = some k) :
    p.length ≤ x.toNat + 1 - n := by
  induction p generalizing x with
  | nil => exact Nat.zero_le _
  | cons c p ih =>
    obtain ⟨hint, hp⟩ := follow_cons_eq_some.1 h
    have hn := T.le_of_internal hint
    have hc := T.child_lt x c hn hx
    have := ih (by omega) hp
    rw [List.length_cons]
    omega

/-- A path from the root has at most 255 steps (R12). -/
theorem length_path_root_le {p : List Bool} {k : NodeIdx} (h : b.follow p root = some k) : p.length ≤ 255 := by
  have := T.length_path_le T.root_lt h
  have := T.root_eq; have := T.n_le
  omega

/-- Every node of the tree is reached from the root, by induction from the last node down. -/
theorem exists_path (k : NodeIdx) (hk : k.toNat < 2 * n - 1) : ∃ p, b.follow p root = some k := by
  induction hm : 2 * n - 2 - k.toNat using Nat.strong_induction_on generalizing k with
  | _ m ih =>
    by_cases hroot : k.toNat = 2 * n - 2
    · obtain rfl : root = k := BitVec.eq_of_toNat_eq (T.root_eq.trans hroot.symm)
      exact ⟨[], rfl⟩
    · obtain ⟨q, c, hqn, hq, rfl⟩ := T.exists_parent k (by omega)
      have hlt := T.child_lt q c hqn hq
      obtain ⟨p, hp⟩ := ih _ (by omega) q hq rfl
      exact ⟨p ++ [c], follow_concat_eq_some.2 ⟨q, hp, T.internal q hqn hq, rfl⟩⟩

end TreeBuilder.IsTree

/-! ### The walk (R130) -/

/-- The bits hold the path, first step first, and 0 from its end on (R17, R31). -/
def spells (bits : CodeBits) (p : List Bool) : Prop :=
  ∀ i < 255, bits.getLsbD i = p.getD i false

theorem spells_zero : spells 0 [] := fun _ _ => BitVec.getLsbD_zero

theorem getD_concat (p : List Bool) (c : Bool) (i : Nat) :
    (p ++ [c]).getD i false = (p.getD i false || (decide (p.length = i) && c)) := by
  rcases Nat.lt_trichotomy i p.length with h | rfl | h
  · rw [List.getD_append _ _ _ _ h, decide_eq_false (by omega), Bool.false_and, Bool.or_false]
  · simp
  · rw [List.getD_eq_default _ _ (by simp; omega), List.getD_eq_default _ _ (by omega), decide_eq_false (by omega)]
    rfl

/-- Going left leaves the bits as they are. -/
theorem spells.left {bits : CodeBits} {p : List Bool} (h : spells bits p) : spells bits (p ++ [false]) := by
  intro i hi
  rw [h i hi, getD_concat, Bool.and_false, Bool.or_false]

/-- Going right sets the bit at the path's end. -/
theorem spells.right {bits : CodeBits} {p : List Bool} (h : spells bits p) :
    spells (bits ||| (1 <<< p.length)) (p ++ [true]) := by
  intro i hi
  have hbit : (1 <<< p.length : CodeBits).getLsbD i = decide (p.length = i) := by
    change (BitVec.ofNat 255 (1 <<< p.length)).getLsbD i = _
    rw [BitVec.getLsbD_ofNat, Nat.one_shiftLeft, Nat.testBit_two_pow, decide_eq_true hi, Bool.true_and]
  rw [BitVec.getLsbD_or, h i hi, hbit, getD_concat, Bool.and_true]

theorem CodeTable.length_codeword (t : CodeTable) (x : Sym) : (t.codeword x).length = (t.lenOf x).toNat := by
  simp [CodeTable.codeword]

/-- An entry that spells a path has it as its codeword. -/
theorem CodeTable.codeword_setCode_self (t : CodeTable) (x : Sym) {bits : CodeBits} {p : List Bool} (hp : p.length ≤ 255)
    (h : spells bits p) : (t.setCode x (BitVec.ofNat 8 p.length) bits).codeword x = p := by
  have hlen : (BitVec.ofNat 8 p.length).toNat = p.length := by
    rw [BitVec.toNat_ofNat, Nat.mod_eq_of_lt (by omega)]
  rw [CodeTable.codeword, CodeTable.lenOf_setCode_self, CodeTable.bitsOf_setCode_self, hlen]
  refine List.ext_getElem (by simp) fun i hi hi' => ?_
  rw [List.getElem_map, List.getElem_range, h i (by omega), List.getD_eq_getElem _ _ hi']

/-- The codeword of a symbol depends on its entry alone. -/
theorem CodeTable.codeword_congr {t u : CodeTable} {x : Sym} (hl : t.lenOf x = u.lenOf x) (hb : t.bitsOf x = u.bitsOf x) :
    t.codeword x = u.codeword x := by
  simp only [CodeTable.codeword, hl, hb]

/-- The path `p`, of fewer than `fuel` steps, leads from `x` to a leaf of symbol `y`. -/
def TreeBuilder.leadsTo (b : TreeBuilder) (fuel : Nat) (x : NodeIdx) (y : Sym) (p : List Bool) : Prop :=
  p.length < fuel ∧ ∃ k, b.follow p x = some k ∧ (b.nodeAt k).isLeaf = true ∧ (b.nodeAt k).sym = y

theorem TreeBuilder.leadsTo_leaf {b : TreeBuilder} {fuel : Nat} {x : NodeIdx} (hx : (b.nodeAt x).isLeaf = true) {y : Sym}
    {p : List Bool} : b.leadsTo (fuel + 1) x y p ↔ p = [] ∧ (b.nodeAt x).sym = y := by
  constructor
  · rintro ⟨-, k, hk, -, hy⟩
    obtain rfl := eq_nil_of_follow_leaf hx hk
    cases hk
    exact ⟨rfl, hy⟩
  · rintro ⟨rfl, hy⟩
    exact ⟨Nat.succ_pos _, x, rfl, hx, hy⟩

theorem TreeBuilder.leadsTo_internal {b : TreeBuilder} {fuel : Nat} {x : NodeIdx} (hx : (b.nodeAt x).isLeaf = false)
    {y : Sym} {p : List Bool} :
    b.leadsTo (fuel + 1) x y p ↔ ∃ c q, p = c :: q ∧ b.leadsTo fuel (b.child x c) y q := by
  cases p with
  | nil =>
    constructor
    · rintro ⟨-, k, hk, hleaf, -⟩
      cases hk
      exact absurd (hx.symm.trans hleaf) (by decide)
    · rintro ⟨c, q, h, -⟩
      cases h
  | cons c q =>
    simp only [leadsTo, follow_cons_of_internal hx, List.length_cons, Nat.succ_lt_succ_iff]
    constructor
    · exact fun h => ⟨c, q, rfl, h⟩
    · rintro ⟨c, q, h, h'⟩
      cases h
      exact h'

/-- What the walk does to a symbol's entry: the codeword becomes a path to a leaf of the symbol, or there is no such path and
the entry is left as it was. -/
theorem walk_cases (b : TreeBuilder) (fuel : Nat) (x : NodeIdx) (pre : List Bool) (bits : CodeBits) (t : CodeTable)
    (hl : pre.length + fuel ≤ 256) (hb : spells bits pre) (y : Sym) :
    (∃ p, b.leadsTo fuel x y p ∧ (walk b fuel x pre.length bits t).codeword y = pre ++ p) ∨
      ((∀ p, ¬ b.leadsTo fuel x y p) ∧ (walk b fuel x pre.length bits t).lenOf y = t.lenOf y ∧
        (walk b fuel x pre.length bits t).bitsOf y = t.bitsOf y) := by
  induction fuel generalizing x pre bits t with
  | zero => exact .inr ⟨fun p h => Nat.not_lt_zero _ h.1, rfl, rfl⟩
  | succ n ih =>
    cases hx : (b.nodeAt x).isLeaf with
    | true =>
      simp only [walk, hx, if_true, TreeBuilder.leadsTo_leaf hx]
      by_cases hy : (b.nodeAt x).sym = y
      · subst hy
        exact .inl ⟨[], ⟨rfl, rfl⟩, by rw [t.codeword_setCode_self _ (by omega) hb, List.append_nil]⟩
      · exact .inr ⟨fun _ h => hy h.2, t.lenOf_setCode_of_ne (Ne.symm hy) _ _, t.bitsOf_setCode_of_ne (Ne.symm hy) _ _⟩
    | false =>
      have hwalk : walk b (n + 1) x pre.length bits t =
          walk b n (b.child x true) (pre ++ [true]).length (bits ||| (1 <<< pre.length))
            (walk b n (b.child x false) (pre ++ [false]).length bits t) := by
        simp [walk, hx, TreeBuilder.child]
      have hlen (c : Bool) : (pre ++ [c]).length + n ≤ 256 := by simp; omega
      simp only [hwalk, TreeBuilder.leadsTo_internal hx]
      rcases ih (b.child x true) (pre ++ [true]) _ (walk b n (b.child x false) (pre ++ [false]).length bits t) (hlen _)
        hb.right with ⟨p, hp, hcode⟩ | ⟨hnone, hlenOf, hbitsOf⟩
      · exact .inl ⟨true :: p, ⟨true, p, rfl, hp⟩, by rw [hcode, List.append_assoc]; rfl⟩
      · rw [CodeTable.codeword_congr hlenOf hbitsOf, hlenOf, hbitsOf]
        rcases ih (b.child x false) (pre ++ [false]) bits t (hlen _) hb.left with ⟨p, hp, hcode⟩ | ⟨hnone', hkeep⟩
        · exact .inl ⟨false :: p, ⟨false, p, rfl, hp⟩, by rw [hcode, List.append_assoc]; rfl⟩
        · refine .inr ⟨?_, hkeep⟩
          rintro _ ⟨c, q, rfl, hq⟩
          cases c
          · exact hnone' q hq
          · exact hnone q hq

/-! ### The code table (R130, R131, R133) -/

section Derive

variable {freq : Sym → Count} {b : TreeBuilder}

theorem deriveCodes_of_empty (h : (presentSyms freq allSyms).length = 0) :
    deriveCodes (buildTree freq b) = CodeTable.empty := by
  rw [deriveCodes, if_pos ((buildTree_n freq b).trans h)]

theorem deriveCodes_of_single (h : (presentSyms freq allSyms).length = 1) :
    deriveCodes (buildTree freq b) = CodeTable.empty.setCode ((buildTree freq b).tb.nodeAt 0).sym 1 0 := by
  have hn := (buildTree_n freq b).trans h
  rw [deriveCodes, if_neg (by omega), if_pos hn]
  rfl

theorem deriveCodes_of_tree (h : 2 ≤ (presentSyms freq allSyms).length) :
    deriveCodes (buildTree freq b) = walk (buildTree freq b).tb 256 (buildTree freq b).root 0 0 CodeTable.empty := by
  have hn := buildTree_n freq b
  rw [deriveCodes, if_neg (by omega), if_neg (by omega)]

end Derive

section BuiltCodes

variable (s : State)

theorem buildModel_isTree (h : s.buildModel.nsym.toNat ≠ 0) :
    s.buildModel.tb.IsTree s.buildModel.nsym.toNat s.buildModel.root := by
  rw [buildModel_nsym_toNat] at h ⊢
  exact buildTree_isTree h s.tb

theorem not_present_of_empty (h : s.buildModel.nsym.toNat = 0) (x : Sym) : s.freqOf x = 0 := by
  by_contra hx
  obtain ⟨k, hk, -⟩ := buildModel_leaf_of_present s hx
  omega

/-- In a model of one symbol, the symbol is that of leaf 0 (R131). -/
theorem present_iff_of_single (h : s.buildModel.nsym.toNat = 1) (x : Sym) :
    s.freqOf x ≠ 0 ↔ (s.buildModel.tb.nodeAt 0).sym = x := by
  constructor
  · intro hx
    obtain ⟨k, hk, hsym⟩ := buildModel_leaf_of_present s hx
    obtain rfl : k = 0 := BitVec.eq_of_toNat_eq (by change _ = 0; omega)
    exact hsym
  · rintro rfl
    exact (buildModel_leaf s 0 (by rw [h]; decide)).2.2

theorem buildModel_ct_of_single (h : s.buildModel.nsym.toNat = 1) {x : Sym} (hx : s.freqOf x ≠ 0) :
    s.buildModel.ct.lenOf x = 1 ∧ s.buildModel.ct.bitsOf x = 0 := by
  obtain rfl := (present_iff_of_single s h x).1 hx
  rw [State.buildModel_ct, deriveCodes_of_single ((buildModel_nsym_toNat s).symm.trans h)]
  exact ⟨CodeTable.lenOf_setCode_self _ _ _ _, CodeTable.bitsOf_setCode_self _ _ _ _⟩

/-- With two or more symbols present, a symbol's codeword is a path from the root to its leaf, or there is no such path and its
entry is empty (R130, R133). -/
theorem buildModel_ct_cases (h : 2 ≤ s.buildModel.nsym.toNat) (x : Sym) :
    s.buildModel.tb.leadsTo 256 s.buildModel.root x (s.buildModel.ct.codeword x) ∨
      ((∀ p, ¬ s.buildModel.tb.leadsTo 256 s.buildModel.root x p) ∧ s.buildModel.ct.lenOf x = 0) := by
  have hct : s.buildModel.ct = walk s.buildModel.tb 256 s.buildModel.root 0 0 CodeTable.empty :=
    deriveCodes_of_tree (buildModel_nsym_toNat s ▸ h)
  have hwalk := walk_cases s.buildModel.tb 256 s.buildModel.root [] 0 CodeTable.empty (Nat.le_refl _) spells_zero x
  rw [List.length_nil, ← hct] at hwalk
  rcases hwalk with ⟨p, hp, hcode⟩ | ⟨hnone, hlen, -⟩
  · exact .inl (by rwa [hcode])
  · exact .inr ⟨hnone, hlen.trans (CodeTable.lenOf_empty x)⟩

/-- The codeword of a symbol present is a path from the root to its leaf (R130). -/
theorem buildModel_follow_codeword (h : 2 ≤ s.buildModel.nsym.toNat) {x : Sym} (hx : s.freqOf x ≠ 0) :
    ∃ k : NodeIdx, k.toNat < s.buildModel.nsym.toNat ∧ (s.buildModel.tb.nodeAt k).sym = x ∧
      s.buildModel.tb.follow (s.buildModel.ct.codeword x) s.buildModel.root = some k := by
  have T := buildModel_isTree s (by omega)
  rcases buildModel_ct_cases s h x with ⟨-, k, hk, hleaf, hsym⟩ | ⟨hnone, -⟩
  · exact ⟨k, T.lt_of_leaf (T.follow_lt T.root_lt hk) hleaf, hsym, hk⟩
  · obtain ⟨k, hk, hsym⟩ := buildModel_leaf_of_present s hx
    obtain ⟨p, hp⟩ := T.exists_path k (by omega)
    have := T.length_path_root_le hp
    exact absurd ⟨by omega, k, hp, T.leaf k hk, hsym⟩ (hnone p)

/-- A symbol that is not present has no codeword (R133). -/
theorem buildModel_lenOf_of_absent {x : Sym} (hx : s.freqOf x = 0) : s.buildModel.ct.lenOf x = 0 := by
  have hn := buildModel_nsym_toNat s
  rcases Nat.lt_trichotomy s.buildModel.nsym.toNat 1 with h | h | h
  · rw [State.buildModel_ct, deriveCodes_of_empty (by omega), CodeTable.lenOf_empty]
  · have hne : x ≠ (s.buildModel.tb.nodeAt 0).sym := fun e => (present_iff_of_single s h x).2 e.symm hx
    rw [State.buildModel_ct, deriveCodes_of_single (by omega)]
    exact (CodeTable.lenOf_setCode_of_ne _ hne _ _).trans (CodeTable.lenOf_empty x)
  · rcases buildModel_ct_cases s h x with ⟨-, k, hk, hleaf, rfl⟩ | ⟨-, hlen⟩
    · have T := buildModel_isTree s (by omega)
      exact absurd hx (buildModel_leaf s k (T.lt_of_leaf (T.follow_lt T.root_lt hk) hleaf)).2.2
    · exact hlen

/-- A symbol present has a codeword of at least one bit. -/
theorem buildModel_lenOf_of_present {x : Sym} (hx : s.freqOf x ≠ 0) : s.buildModel.ct.lenOf x ≠ 0 := by
  rcases Nat.lt_trichotomy s.buildModel.nsym.toNat 1 with h | h | h
  · exact absurd (not_present_of_empty s (by omega) x) hx
  · rw [(buildModel_ct_of_single s h hx).1]
    decide
  · intro hlen
    obtain ⟨k, hk, -, hfollow⟩ := buildModel_follow_codeword s h hx
    have hnil : s.buildModel.ct.codeword x = [] := by rw [CodeTable.codeword, hlen]; rfl
    rw [hnil] at hfollow
    cases hfollow
    have := (buildModel_isTree s (by omega)).root_eq
    omega

/-- R130, R131, R133: BUILD's code table is that of its tree. -/
theorem buildModel_codesWf : s.buildModel.CodesWf where
  present := fun _ =>
    ⟨fun h => by_contra fun hx => buildModel_lenOf_of_present s hx h, buildModel_lenOf_of_absent s⟩
  single := fun h _ => buildModel_ct_of_single s (congrArg BitVec.toNat h)
  path := fun h _ => buildModel_follow_codeword s h

/-- R136: a codeword leads to a leaf, where no longer path goes on. -/
theorem buildModel_prefixFree : prefixFree (fun x => s.freqOf x ≠ 0) s.buildModel.ct.codeword := by
  rintro x y hx hy hne ⟨q, hq⟩
  rcases Nat.lt_trichotomy s.buildModel.nsym.toNat 1 with h | h | h
  · exact hx (not_present_of_empty s (by omega) x)
  · exact hne (((present_iff_of_single s h x).1 hx).symm.trans ((present_iff_of_single s h y).1 hy))
  · obtain ⟨j, hj, rfl, hfj⟩ := buildModel_follow_codeword s h hx
    obtain ⟨k, hk, rfl, hfk⟩ := buildModel_follow_codeword s h hy
    rw [← hq, TreeBuilder.follow_append, hfj] at hfk
    obtain rfl := TreeBuilder.eq_nil_of_follow_leaf (buildModel_leaf s j hj).1 hfk
    cases hfk
    exact hne rfl

end BuiltCodes

/-! ### The code table outside BUILD (R22, R31) -/

/-- The states hold the same model: counts, code table, tree, NSYM and ROOT. -/
def State.sameModel (s t : State) : Prop :=
  t.freq = s.freq ∧ t.ct = s.ct ∧ t.tb = s.tb ∧ t.nsym = s.nsym ∧ t.root = s.root

theorem State.sameModel_of_sameRegs {s t : State} (h : s.sameRegs t) : s.sameModel t := by
  obtain ⟨_, _, _, _, _, _, rfl⟩ := h
  exact ⟨rfl, rfl, rfl, rfl, rfl⟩

theorem State.sameModel.freqOf_eq {s t : State} (h : s.sameModel t) : t.freqOf = s.freqOf := by
  funext x
  simp only [State.freqOf, h.1]

/-- A property of the model that every BUILD establishes holds outside TRAIN after a step if it did before: outside TRAIN nothing
but CLEAR, which goes back to TRAIN, changes the model (R22, R120). -/
theorem step_keeps_model {P : State → Prop} (same : ∀ {s t : State}, s.sameModel t → P s → P t)
    (build : ∀ s : State, P s.buildModel) {s t : State} (hs : s.phase ≠ .train → P s) (h : step s = .next t)
    (hp : t.phase ≠ .train) : P t := by
  rcases step_effect_cases h with hst | ⟨a, rest, -, rfl⟩ | ⟨w, old, i, -, -, hl, rfl⟩
  · refine same (State.sameModel_of_sameRegs hst) (hs ?_)
    obtain ⟨_, _, _, _, _, _, rfl⟩ := hst
    exact hp
  · exact absurd rfl hp
  · by_cases hb : i = .build
    · subst hb
      exact build _
    · have hps : s.phase ≠ .train := fun hps => hp (effect_phase_of_train (s := s.release.accepted) hl hps hb)
      have hc : i ≠ .clear := fun hc => hp (by rw [hc]; rfl)
      obtain ⟨hf, -, hct, htb, hn, hr⟩ := effect_frozen (s := s.release.accepted) hl hps hc
      exact same (s := s) ⟨hf, hct, htb, hn, hr⟩ (hs hps)

theorem State.CodesWf.of_sameModel {s t : State} (hst : s.sameModel t) (h : s.CodesWf) : t.CodesWf := by
  have hfreq := hst.freqOf_eq
  obtain ⟨-, hct, htb, hn, hr⟩ := hst
  constructor
  case present => rw [hct, hfreq]; exact h.present
  case single => rw [hct, hfreq, hn]; exact h.single
  case path => rw [hct, hfreq, hn, htb, hr]; exact h.path

/-- Settles O57: BUILD derives the code table of its tree (`buildModel_codesWf`), and no other step changes either. -/
theorem stepKeepsTheCodes : Obligations.StepKeepsTheCodes := fun _ _ hs h =>
  step_keeps_model State.CodesWf.of_sameModel buildModel_codesWf hs h

/-- Settles O60: no codeword of BUILD's begins another (`buildModel_prefixFree`), and no other step changes it or the counts. -/
theorem stepKeepsTheCodePrefixFree : Obligations.StepKeepsTheCodePrefixFree := by
  intro s t hs h
  refine step_keeps_model (P := fun s => prefixFree (fun x => s.freqOf x ≠ 0) s.ct.codeword) ?_ buildModel_prefixFree hs h
  intro s t hst hs
  rwa [hst.freqOf_eq, hst.2.1]

/-! ### BUILD's answer (R126, R133 to R136, R138) -/

/-- Settles O35: the code table of `buildModel_codesWf`, with no bit set at or above a length (`deriveCodes_bitsWf`). -/
theorem buildGivesPathsAsCodewords : Obligations.BuildGivesPathsAsCodewords := by
  intro s t hp h x
  obtain rfl := eq_buildModel_of_exec hp h
  have hwf := buildModel_codesWf s.accepted
  have hbits : s.accepted.buildModel.ct.bitsWf := deriveCodes_bitsWf _
  refine ⟨fun hx => ?_, fun hx => ⟨?_, fun hn => hwf.single hn x hx, fun hn => hwf.path hn x hx, fun i hi => hbits x i hi⟩⟩
  · have hlen := (hwf.present x).2 hx
    exact ⟨hlen, BitVec.eq_of_getLsbD_eq fun i _ => by rw [hbits x i (by rw [hlen]; exact Nat.zero_le _)]; simp⟩
  · have hlen : s.accepted.buildModel.ct.lenOf x ≠ 0 := fun hlen => hx ((hwf.present x).1 hlen)
    exact Nat.one_le_iff_ne_zero.2 fun h0 => hlen (BitVec.eq_of_toNat_eq h0)

/-- Settles O36: `buildModel_prefixFree`. -/
theorem builtCodeIsPrefixFree : Obligations.BuiltCodeIsPrefixFree := by
  intro s t hp h
  obtain rfl := eq_buildModel_of_exec hp h
  exact buildModel_prefixFree s.accepted

/-- Settles O29: the word by `decode_eq_ok_iff`, the answer by what `buildTree` makes of HSIZE, ROOT and NEXT. -/
theorem buildEntersReady : Obligations.BuildEntersReady := by
  refine ⟨fun w => decode_eq_ok_iff.trans eq_comm, fun s => ⟨fun hp => ?_, fun hp => ?_⟩⟩
  · have hn := buildModel_nsym_toNat s.accepted
    refine ⟨_, exec_build_of_train hp, rfl, ?_, ?_, ?_, buildTree_hsize _ _⟩
    · rw [hn, presentSyms]
      simp only [count_pos_iff]
      rfl
    · rw [hn]; exact toNat_buildTreeRoot _ _
    · rw [hn]; exact buildTree_next_toNat _ _
  · exact exec_of_illegal (beq_eq_false_iff_ne.2 hp)

/-- Settles O38: leaves, heap and merge loop see nothing of what NODE and HEAP held (`deriveCodes_eq`, `buildTree_agrees`). -/
theorem buildIsDeterminedByTheCounts : Obligations.BuildIsDeterminedByTheCounts := by
  intro s u s' u' hps hpu hfreq hs hu
  obtain rfl := eq_buildModel_of_exec hps hs
  obtain rfl := eq_buildModel_of_exec hpu hu
  have hf : u.accepted.freqOf = s.accepted.freqOf := by
    funext x
    change u.freq[x.toNat] = s.freq[x.toNat]
    simp only [hfreq]
  have hn : s.accepted.buildModel.nsym.toNat = (buildTree s.accepted.freqOf s.accepted.tb).n :=
    (buildModel_nsym_toNat _).trans (buildTree_n _ _).symm
  rw [hn]
  simp only [State.buildModel_ct, State.buildModel_nsym, State.buildModel_root, State.buildModel_tb, hf]
  exact ⟨deriveCodes_eq _ _ _, congrArg _ (buildTree_n_eq _ _ _), buildTreeRoot_eq _ _ _, buildTree_agrees _ _ _⟩

end Sys2Proof.Machine

/-! ## The heap order (R123, R127, R128, R129) -/

namespace Sys2Proof.Machine

/-! ### The order (R123) -/

/-- What `less` compares: the weight, then the index. -/
def TreeBuilder.key (b : TreeBuilder) (x : NodeIdx) : ℕ ×ₗ ℕ :=
  toLex ((b.nodeAt x).weight.toNat, x.toNat)

theorem TreeBuilder.less_iff_key {b : TreeBuilder} {x y : NodeIdx} : b.less x y = true ↔ b.key x < b.key y := by
  simp only [TreeBuilder.less, TreeBuilder.key, Prod.Lex.toLex_lt_toLex, Bool.or_eq_true, Bool.and_eq_true,
    decide_eq_true_eq, BitVec.lt_def, BitVec.toNat_eq]

theorem TreeBuilder.less_eq_false_iff {b : TreeBuilder} {x y : NodeIdx} : b.less x y = false ↔ b.key y ≤ b.key x := by
  rw [← not_lt, ← TreeBuilder.less_iff_key, Bool.not_eq_true]

theorem TreeBuilder.key_injective (b : TreeBuilder) : Function.Injective b.key := fun _ _ h =>
  BitVec.eq_of_toNat_eq (congrArg (fun k => (ofLex k).2) h)

theorem TreeBuilder.weight_le_of_less {b : TreeBuilder} {x y : NodeIdx} (h : b.less x y = true) :
    (b.nodeAt x).weight.toNat ≤ (b.nodeAt y).weight.toNat := by
  rcases Prod.Lex.toLex_lt_toLex.1 (TreeBuilder.less_iff_key.1 h) with h | ⟨h, -⟩
  · exact h.le
  · exact h.le

/-- Settles O30: `less` compares keys, which are linearly ordered, and no two indices have the same key. -/
theorem lessIsAStrictTotalOrder : Obligations.LessIsAStrictTotalOrder := by
  intro b
  refine ⟨fun x y => ?_, fun x => TreeBuilder.less_eq_false_iff.2 le_rfl, fun x y z => ?_, fun x y hne => ?_⟩
  · simp only [TreeBuilder.less, Bool.or_eq_true, Bool.and_eq_true, decide_eq_true_eq]
  · simp only [TreeBuilder.less_iff_key]
    exact lt_trans
  · simp only [TreeBuilder.less_iff_key]
    exact lt_or_gt_of_ne (b.key_injective.ne hne)

/-! ### The heap by its keys -/

/-- The key of the entry at a position. -/
def TreeBuilder.keyAt (b : TreeBuilder) (i : Nat) : ℕ ×ₗ ℕ :=
  b.key (b.heapAt i)

theorem TreeBuilder.heapOrdered_iff {b : TreeBuilder} :
    b.heapOrdered ↔ ∀ i, 0 < i → i < b.hsize.toNat → b.keyAt ((i - 1) / 2) ≤ b.keyAt i := by
  simp only [TreeBuilder.heapOrdered, TreeBuilder.less_eq_false_iff, TreeBuilder.keyAt]

theorem TreeBuilder.keyAt_congr {a b : TreeBuilder} {i : Nat} (hn : a.nodeAt (b.heapAt i) = b.nodeAt (b.heapAt i))
    (hi : a.heapAt i = b.heapAt i) : a.keyAt i = b.keyAt i := by
  simp only [TreeBuilder.keyAt, TreeBuilder.key, hi, hn]

theorem TreeBuilder.keyAt_swapHeap (b : TreeBuilder) {i j : Nat} (hi : i < 256) (hj : j < 256) (k : Nat) :
    (b.swapHeap i j).keyAt k = b.keyAt (Equiv.swap i j k) := by
  simp only [TreeBuilder.keyAt, b.heapAt_swapHeap hi hj]
  rfl

/-- The least entry of an ordered heap is at its front (R129). -/
theorem TreeBuilder.heapOrdered.keyAt_zero_le {b : TreeBuilder} (h : b.heapOrdered) (i : Nat) (hi : i < b.hsize.toNat) :
    b.keyAt 0 ≤ b.keyAt i := by
  induction i using Nat.strong_induction_on with
  | _ i ih =>
    rcases Nat.eq_zero_or_pos i with rfl | hpos
    · exact le_rfl
    · exact (ih ((i - 1) / 2) (by omega) (by omega)).trans (TreeBuilder.heapOrdered_iff.1 h i hpos hi)

/-! ### heap_push (R127) -/

/-- The heap is in order but for the entry at `i`, which may be less than its parent. -/
structure TreeBuilder.OrderedAbove (b : TreeBuilder) (i : Nat) : Prop where
  edge : ∀ j, 0 < j → j < b.hsize.toNat → j ≠ i → b.keyAt ((j - 1) / 2) ≤ b.keyAt j
  across : ∀ j, 0 < j → j < b.hsize.toNat → (j - 1) / 2 = i → 0 < i → b.keyAt ((i - 1) / 2) ≤ b.keyAt j

/-- A pass of heap_push's loop: the entry moves to its parent's place. -/
theorem TreeBuilder.OrderedAbove.swapHeap {b : TreeBuilder} {i : Nat} (h : b.OrderedAbove i) (hpos : 0 < i)
    (hi : i < b.hsize.toNat) (hle : b.hsize.toNat ≤ 256) (hlt : b.keyAt i < b.keyAt ((i - 1) / 2)) :
    (b.swapHeap i ((i - 1) / 2)).OrderedAbove ((i - 1) / 2) := by
  have hkey := b.keyAt_swapHeap (i := i) (j := (i - 1) / 2) (by omega) (by omega)
  have hpi : (i - 1) / 2 ≠ i := by omega
  have hkeep {j : Nat} (h1 : j ≠ i) (h2 : j ≠ (i - 1) / 2) : (b.swapHeap i ((i - 1) / 2)).keyAt j = b.keyAt j := by
    rw [hkey, Equiv.swap_apply_of_ne_of_ne h1 h2]
  have hkeyi : (b.swapHeap i ((i - 1) / 2)).keyAt i = b.keyAt ((i - 1) / 2) := by rw [hkey, Equiv.swap_apply_left]
  have hkeyp : (b.swapHeap i ((i - 1) / 2)).keyAt ((i - 1) / 2) = b.keyAt i := by rw [hkey, Equiv.swap_apply_right]
  constructor
  case edge =>
    intro j hj0 hj hjp
    rw [TreeBuilder.swapHeap_hsize] at hj
    by_cases hji : j = i
    · rw [hji, hkeyi, hkeyp]
      exact hlt.le
    rw [hkeep hji hjp]
    by_cases hpar : (j - 1) / 2 = i
    · rw [hpar, hkeyi]
      exact h.across j hj0 hj hpar hpos
    by_cases hsib : (j - 1) / 2 = (i - 1) / 2
    · rw [hsib, hkeyp]
      exact hlt.le.trans (hsib ▸ h.edge j hj0 hj hji)
    · rw [hkeep hpar hsib]
      exact h.edge j hj0 hj hji
  case across =>
    intro j hj0 hj hpar hp0
    rw [TreeBuilder.swapHeap_hsize] at hj
    have hup := h.edge ((i - 1) / 2) hp0 (by omega) hpi
    rw [hkeep (j := ((i - 1) / 2 - 1) / 2) (by omega) (by omega)]
    by_cases hji : j = i
    · rwa [hji, hkeyi]
    · rw [hkeep hji (by omega)]
      exact hup.trans (hpar ▸ h.edge j hj0 hj hji)

theorem siftUp_heapOrdered (fuel i : Nat) (b : TreeBuilder) (hfuel : i ≤ fuel) (hi : i < b.hsize.toNat)
    (hle : b.hsize.toNat ≤ 256) (h : b.OrderedAbove i) : (siftUp fuel i b).heapOrdered := by
  induction fuel generalizing i b with
  | zero =>
    obtain rfl : i = 0 := by omega
    exact TreeBuilder.heapOrdered_iff.2 fun j hj0 hj => h.edge j hj0 hj (by omega)
  | succ n ih =>
    simp only [siftUp]
    split
    · next h0 => exact TreeBuilder.heapOrdered_iff.2 fun j hj0 hj => h.edge j hj0 hj (by omega)
    · next h0 =>
      split
      · next hless =>
        have hstep := h.swapHeap (by omega) hi hle (TreeBuilder.less_iff_key.1 hless)
        exact ih _ _ (by omega) (by rw [TreeBuilder.swapHeap_hsize]; omega) hle hstep
      · next hless =>
        rw [Bool.not_eq_true, TreeBuilder.less_eq_false_iff] at hless
        refine TreeBuilder.heapOrdered_iff.2 fun j hj0 hj => ?_
        by_cases hji : j = i
        · rw [hji]; exact hless
        · exact h.edge j hj0 hj hji

theorem heapPush_heapOrdered (x : NodeIdx) {b : TreeBuilder} (hlt : b.hsize.toNat < 256) (h : b.heapOrdered) :
    (heapPush x b).heapOrdered := by
  have hsucc : (b.hsize + 1).toNat = b.hsize.toNat + 1 := hsize_succ_toNat (by omega)
  refine siftUp_heapOrdered _ _ _ le_rfl (by rw [hsucc]; omega) (by rw [hsucc]; omega) ?_
  have hkeep {j : Nat} (hj : j ≠ b.hsize.toNat) :
      TreeBuilder.keyAt { b.setHeap b.hsize.toNat x with hsize := b.hsize + 1 } j = b.keyAt j :=
    TreeBuilder.keyAt_congr rfl (b.heapAt_setHeap_of_ne hj x)
  constructor
  case edge =>
    intro j hj0 hj hne
    change j < (b.hsize + 1).toNat at hj
    rw [hkeep hne, hkeep (j := (j - 1) / 2) (by omega)]
    exact TreeBuilder.heapOrdered_iff.1 h j hj0 (by omega)
  case across =>
    intro j hj0 hj hpar
    change j < (b.hsize + 1).toNat at hj
    omega

/-- Settles O31: the loop restores the order (`siftUp_heapOrdered`) and only permutes the entries (`heapPush_entries_perm`). -/
theorem heapPushAddsOneEntry : Obligations.HeapPushAddsOneEntry := by
  intro b x hlt h
  refine ⟨heapPush_heapOrdered x hlt h, heapPush_entries_perm x b hlt, ?_, heapPush_node x b, heapPush_next x b⟩
  rw [heapPush_hsize, hsize_succ_toNat (by omega)]

/-! ### heap_pop (R128, R129) -/

/-- The heap is in order but for the entry at `i`, which may be greater than its children. -/
structure TreeBuilder.OrderedBelow (b : TreeBuilder) (i : Nat) : Prop where
  edge : ∀ j, 0 < j → j < b.hsize.toNat → (j - 1) / 2 ≠ i → b.keyAt ((j - 1) / 2) ≤ b.keyAt j
  across : ∀ j, 0 < j → j < b.hsize.toNat → (j - 1) / 2 = i → 0 < i → b.keyAt ((i - 1) / 2) ≤ b.keyAt j

/-- The lesser of a position and another one that lies in the heap. -/
def TreeBuilder.lesser (b : TreeBuilder) (m c : Nat) : Nat :=
  if c < b.hsize.toNat ∧ b.less (b.heapAt c) (b.heapAt m) then c else m

/-- heap_pop's loop compares a position with its left child and the lesser one with its right child (R128). -/
theorem leastChild_eq_lesser (b : TreeBuilder) (i : Nat) :
    leastChild b i = b.lesser (b.lesser i (2 * i + 1)) (2 * i + 2) := rfl

theorem TreeBuilder.lesser_cases (b : TreeBuilder) (m c : Nat) :
    b.lesser m c = m ∧ (c < b.hsize.toNat → b.keyAt m ≤ b.keyAt c) ∨
      b.lesser m c = c ∧ c < b.hsize.toNat ∧ b.keyAt c < b.keyAt m := by
  by_cases h : c < b.hsize.toNat ∧ b.less (b.heapAt c) (b.heapAt m)
  · exact .inr ⟨if_pos h, h.1, TreeBuilder.less_iff_key.1 h.2⟩
  · refine .inl ⟨if_neg h, fun hc => ?_⟩
    exact TreeBuilder.less_eq_false_iff.1 (Bool.not_eq_true _ ▸ fun hless => h ⟨hc, hless⟩)

theorem TreeBuilder.keyAt_lesser_le_left (b : TreeBuilder) (m c : Nat) : b.keyAt (b.lesser m c) ≤ b.keyAt m := by
  rcases b.lesser_cases m c with ⟨h, -⟩ | ⟨h, -, hlt⟩ <;> rw [h]
  exact hlt.le

theorem TreeBuilder.keyAt_lesser_le_right (b : TreeBuilder) (m : Nat) {c : Nat} (hc : c < b.hsize.toNat) :
    b.keyAt (b.lesser m c) ≤ b.keyAt c := by
  rcases b.lesser_cases m c with ⟨h, hle⟩ | ⟨h, -⟩ <;> rw [h]
  exact hle hc

/-- heap_pop's loop stays at `i`, or goes to a child with a lower key than `i`. -/
theorem leastChild_cases (b : TreeBuilder) (i : Nat) :
    leastChild b i = i ∨ (0 < leastChild b i ∧ leastChild b i < b.hsize.toNat ∧ (leastChild b i - 1) / 2 = i ∧
      b.keyAt (leastChild b i) < b.keyAt i) := by
  rw [leastChild_eq_lesser]
  rcases b.lesser_cases (b.lesser i (2 * i + 1)) (2 * i + 2) with ⟨hr, -⟩ | ⟨hr, hlt, hkey⟩ <;> rw [hr]
  · rcases b.lesser_cases i (2 * i + 1) with ⟨hl, -⟩ | ⟨hl, hlt, hkey⟩ <;> rw [hl]
    · exact .inl rfl
    · exact .inr ⟨by omega, hlt, by omega, hkey⟩
  · exact .inr ⟨by omega, hlt, by omega, hkey.trans_le (b.keyAt_lesser_le_left i _)⟩

/-- No child of `i` has a lower key than the position heap_pop's loop goes to. -/
theorem keyAt_leastChild_le (b : TreeBuilder) {i j : Nat} (hj0 : 0 < j) (hj : j < b.hsize.toNat) (hpar : (j - 1) / 2 = i) :
    b.keyAt (leastChild b i) ≤ b.keyAt j := by
  rw [leastChild_eq_lesser]
  obtain rfl | rfl : j = 2 * i + 1 ∨ j = 2 * i + 2 := by omega
  · exact (b.keyAt_lesser_le_left _ _).trans (b.keyAt_lesser_le_right i hj)
  · exact b.keyAt_lesser_le_right _ hj

/-- A pass of heap_pop's loop: the entry moves to the place of its lesser child. -/
theorem TreeBuilder.OrderedBelow.swapHeap {b : TreeBuilder} {i m : Nat} (h : b.OrderedBelow i) (hle : b.hsize.toNat ≤ 256)
    (hm0 : 0 < m) (hm : m < b.hsize.toNat) (hpar : (m - 1) / 2 = i) (hlt : b.keyAt m < b.keyAt i)
    (hleast : ∀ j, 0 < j → j < b.hsize.toNat → (j - 1) / 2 = i → b.keyAt m ≤ b.keyAt j) :
    (b.swapHeap i m).OrderedBelow m := by
  have hkey := b.keyAt_swapHeap (i := i) (j := m) (by omega) (by omega)
  have hkeep {j : Nat} (h1 : j ≠ i) (h2 : j ≠ m) : (b.swapHeap i m).keyAt j = b.keyAt j := by
    rw [hkey, Equiv.swap_apply_of_ne_of_ne h1 h2]
  have hkeyi : (b.swapHeap i m).keyAt i = b.keyAt m := by rw [hkey, Equiv.swap_apply_left]
  have hkeym : (b.swapHeap i m).keyAt m = b.keyAt i := by rw [hkey, Equiv.swap_apply_right]
  constructor
  case edge =>
    intro j hj0 hj hjm
    rw [TreeBuilder.swapHeap_hsize] at hj
    by_cases hjm' : j = m
    · rw [hjm', hpar, hkeyi, hkeym]
      exact hlt.le
    by_cases hji : j = i
    · subst hji
      rw [hkeyi, hkeep (j := (j - 1) / 2) (by omega) hjm]
      exact h.across m hm0 hm hpar hj0
    rw [hkeep hji hjm']
    by_cases hsib : (j - 1) / 2 = i
    · rw [hsib, hkeyi]
      exact hleast j hj0 hj hsib
    · rw [hkeep hsib hjm]
      exact h.edge j hj0 hj hsib
  case across =>
    intro j hj0 hj hjm _
    rw [TreeBuilder.swapHeap_hsize] at hj
    rw [hpar, hkeyi, hkeep (j := j) (by omega) (by omega), ← hjm]
    exact h.edge j hj0 hj (by omega)

theorem siftDown_heapOrdered (fuel i : Nat) (b : TreeBuilder) (hfuel : b.hsize.toNat ≤ fuel + i)
    (hle : b.hsize.toNat ≤ 256) (h : b.OrderedBelow i) : (siftDown fuel i b).heapOrdered := by
  induction fuel generalizing i b with
  | zero =>
    refine TreeBuilder.heapOrdered_iff.2 fun j hj0 hj => h.edge j hj0 hj ?_
    rw [siftDown_hsize] at hj
    omega
  | succ n ih =>
    have hleast (j : Nat) (hj0 : 0 < j) (hj : j < b.hsize.toNat) (hpar : (j - 1) / 2 = i) :=
      keyAt_leastChild_le b hj0 hj hpar
    simp only [siftDown]
    split
    · next hstay =>
      refine TreeBuilder.heapOrdered_iff.2 fun j hj0 hj => ?_
      by_cases hpar : (j - 1) / 2 = i
      · have := hleast j hj0 hj hpar
        rwa [hstay, ← hpar] at this
      · exact h.edge j hj0 hj hpar
    · next hgo =>
      obtain ⟨hm0, hm, hpar, hlt⟩ := (leastChild_cases b i).resolve_left hgo
      refine ih _ _ ?_ hle (h.swapHeap hle hm0 hm hpar hlt hleast)
      rw [TreeBuilder.swapHeap_hsize]
      omega

theorem heapPop_heapOrdered {b : TreeBuilder} (h1 : 1 ≤ b.hsize.toNat) (h2 : b.hsize.toNat ≤ 256) (h : b.heapOrdered) :
    (heapPop b).2.heapOrdered := by
  have hpred := hsize_pred_toNat h1
  rw [TreeBuilder.heapOrdered_iff] at h
  by_cases hlast : b.hsize - 1 = 0
  · rw [heapPop_snd_of_last hlast, TreeBuilder.heapOrdered_iff]
    intro i hi0 hi
    change i < (b.hsize - 1).toNat at hi
    exact h i hi0 (by omega)
  · rw [heapPop_snd_of_more hlast]
    refine siftDown_heapOrdered _ _ _ le_rfl (by rw [TreeBuilder.lastToFront_hsize]; omega) ?_
    have hkeep {j : Nat} (hj : 0 < j) : b.lastToFront.keyAt j = b.keyAt j :=
      TreeBuilder.keyAt_congr rfl (b.heapAt_lastToFront_of_pos hj)
    constructor
    case edge =>
      intro j hj0 hj hpar
      rw [TreeBuilder.lastToFront_hsize] at hj
      rw [hkeep hj0, hkeep (Nat.pos_of_ne_zero hpar)]
      exact h j hj0 (by omega)
    case across => exact fun _ _ _ _ h0 => absurd h0 (Nat.lt_irrefl 0)

/-- What heap_pop answers is less than every other entry (R129). -/
theorem heapPop_fst_less {b : TreeBuilder} (h : b.heapOrdered) {y : NodeIdx} (hy : y ∈ b.entries) (hne : y ≠ (heapPop b).1) :
    b.less (heapPop b).1 y = true := by
  rw [heapPop_fst] at hne ⊢
  obtain ⟨i, hi, rfl⟩ := List.mem_map.1 hy
  exact TreeBuilder.less_iff_key.2
    (lt_of_le_of_ne (h.keyAt_zero_le i (List.mem_range.1 hi)) (b.key_injective.ne hne.symm))

/-- Settles O32: the least entry is in front (`heapPop_fst_less`), the loop restores the order (`siftDown_heapOrdered`) and only
permutes the entries left (`heapPop_entries_perm`). -/
theorem heapPopRemovesLeastEntry : Obligations.HeapPopRemovesLeastEntry := by
  intro b h1 h2 h
  refine ⟨fun y => heapPop_fst_less h, heapPop_entries_perm b h1 h2, heapPop_heapOrdered h1 h2 h, ?_, heapPop_node b,
    heapPop_next b⟩
  rw [heapPop_hsize, hsize_pred_toNat h1]
  omega

/-! ## The merge order (R125, R129) -/

/-- Node `k` joins the least node of the queue in which it was created, left, and the next least, right. -/
def TreeBuilder.joinsLeast (n : Nat) (b : TreeBuilder) (k : NodeIdx) : Prop :=
  b.queued n k (b.nodeAt k).left ∧ b.queued n k (b.nodeAt k).right ∧ (b.nodeAt k).left ≠ (b.nodeAt k).right ∧
    ∀ j : NodeIdx, b.queued n k j → j ≠ (b.nodeAt k).left →
      b.less (b.nodeAt k).left j = true ∧ (j ≠ (b.nodeAt k).right → b.less (b.nodeAt k).right j = true)

theorem TreeBuilder.queued_congr {n : Nat} {a b : TreeBuilder} {k : NodeIdx} (h : ∀ j < k, a.nodeAt j = b.nodeAt j)
    (j : NodeIdx) : a.queued n k j ↔ b.queued n k j :=
  and_congr_right fun _ => forall_congr' fun p => forall_congr' fun _ => forall_congr' fun hp => by rw [h p hp]

/-- How a node joins its children depends on the nodes up to it alone. -/
theorem TreeBuilder.joinsLeast.congr {n : Nat} {a b : TreeBuilder} {k : NodeIdx} (hb : b.joinsLeast n k)
    (h : ∀ j ≤ k, a.nodeAt j = b.nodeAt j) : a.joinsLeast n k := by
  have hq := TreeBuilder.queued_congr (n := n) fun j (hj : j < k) => h j (BitVec.le_of_lt hj)
  have hless {x y : NodeIdx} (hx : x < k) (hy : y < k) : a.less x y = b.less x y := by
    refine TreeBuilder.less_congr ?_ ?_
    · rw [h x (BitVec.le_of_lt hx)]
    · rw [h y (BitVec.le_of_lt hy)]
  obtain ⟨hl, hr, hne, hleast⟩ := hb
  unfold TreeBuilder.joinsLeast
  rw [h k (BitVec.le_refl k), hq, hq]
  refine ⟨hl, hr, hne, fun j hj hjl => ?_⟩
  have hj := (hq j).1 hj
  rw [hless hl.1 hj.1, hless hr.1 hj.1]
  exact hleast j hj hjl

/-- The left child of the new node is less than every other root. -/
theorem less_mergeLeft {b : TreeBuilder} (ho : b.heapOrdered) {y : NodeIdx} (hy : y ∈ b.entries) (hne : y ≠ mergeLeft b) : b.less (mergeLeft b) y = true :=
  heapPop_fst_less ho hy hne

section Pass

variable {n : Nat} {b : TreeBuilder} (F : b.Forest n) (ho : b.heapOrdered) (h : 2 ≤ b.hsize.toNat)
include F ho h

/-- The right child of the new node is less than every root left. -/
theorem less_mergeRight {y : NodeIdx} (hy : y ∈ b.entries) (hl : y ≠ mergeLeft b) (hr : y ≠ mergeRight b) :
    b.less (mergeRight b) y = true := by
  have hle := F.hsize_le
  have hrest : y ∈ (heapPop b).2.entries := by
    rcases List.mem_cons.1 ((heapPop_entries_perm b (by omega) hle).mem_iff.1 hy) with hy | hy
    · exact absurd hy hl
    · exact hy
  have hless := heapPop_fst_less (heapPop_heapOrdered (by omega) hle ho) hrest hr
  rwa [TreeBuilder.less_congr (a := b)] at hless
  · rw [TreeBuilder.nodeAt_congr (heapPop_node b)]
  · rw [TreeBuilder.nodeAt_congr (heapPop_node b)]

/-- A pass of the merge loop keeps the heap order (R125). -/
theorem mergeStep_heapOrdered : (mergeStep b).heapOrdered := by
  have hle := F.hsize_le
  have hpop := one_le_heapPop_hsize h
  have hrest : (mergeRest b).heapOrdered := by
    refine heapPop_heapOrdered hpop ?_ (heapPop_heapOrdered (by omega) hle ho)
    rw [heapPop_hsize, hsize_pred_toNat (by omega)]
    omega
  have hkey (i : Nat) (hi : i < (mergeRest b).hsize.toNat) : (mergeWritten b).keyAt i = (mergeRest b).keyAt i := by
    have hmem : (mergeRest b).heapAt i ∈ (mergeRest b).entries := List.mem_map.2 ⟨i, List.mem_range.2 hi, rfl⟩
    have hlt := F.lt_next_of_mem ((F.mem_mergeRest h).1 hmem).1
    exact TreeBuilder.keyAt_congr ((mergeRest b).nodeAt_setNode_of_ne (BitVec.ne_of_lt hlt) _) rfl
  have hwritten : (mergeWritten b).heapOrdered := by
    rw [TreeBuilder.heapOrdered_iff] at hrest ⊢
    intro i hi0 hi
    change i < (mergeRest b).hsize.toNat at hi
    rw [hkey i hi, hkey _ (by omega)]
    exact hrest i hi0 hi
  have hsize : (mergeWritten b).hsize.toNat < 256 := by
    change (mergeRest b).hsize.toNat < 256
    rw [mergeRest_hsize, hsize_pred_toNat (by rwa [heapPop_hsize] at hpop), hsize_pred_toNat (by omega)]
    omega
  rw [mergeStep_eq]
  exact heapPush_heapOrdered b.next hsize hwritten

/-- The node a pass creates joins the two least roots. -/
theorem mergeStep_joinsLeast : (mergeStep b).joinsLeast n b.next := by
  have hq (j : NodeIdx) : (mergeStep b).queued n b.next j ↔ j ∈ b.entries :=
    (TreeBuilder.queued_congr (fun _ => nodeAt_mergeStep_of_lt) j).trans (F.mem_entries j).symm
  have hless {x y : NodeIdx} (hx : x ∈ b.entries) (hy : y ∈ b.entries) : (mergeStep b).less x y = b.less x y := by
    refine TreeBuilder.less_congr ?_ ?_
    · rw [nodeAt_mergeStep_of_lt (F.lt_next_of_mem hx)]
    · rw [nodeAt_mergeStep_of_lt (F.lt_next_of_mem hy)]
  have hlm := F.mergeLeft_mem h
  have hrm := F.mergeRight_mem h
  unfold TreeBuilder.joinsLeast
  simp only [hq, nodeAt_mergeStep_self (F.next_lt h)]
  refine ⟨hlm, hrm, F.mergeLeft_ne_mergeRight h, fun j hj hl => ?_⟩
  rw [hless hlm hj, hless hrm hj]
  exact ⟨less_mergeLeft ho hj hl, less_mergeRight F ho h hj hl⟩

end Pass

/-- What the merge loop keeps of the queue: the forest, the heap's order, and that every node made joins the two least. -/
structure TreeBuilder.MergedLeast (n : Nat) (b : TreeBuilder) : Prop where
  forest : b.Forest n
  ordered : b.heapOrdered
  joins : ∀ k : NodeIdx, n ≤ k.toNat → k < b.next → b.joinsLeast n k

theorem TreeBuilder.MergedLeast.mergeStep {n : Nat} {b : TreeBuilder} (M : b.MergedLeast n) (h : 2 ≤ b.hsize.toNat) :
    (mergeStep b).MergedLeast n where
  forest := M.forest.mergeStep h
  ordered := mergeStep_heapOrdered M.forest M.ordered h
  joins := fun k hn hk => by
    rcases (M.forest.lt_mergeStep_next h).1 hk with hk | rfl
    · exact (M.joins k hn hk).congr fun j hj => nodeAt_mergeStep_of_lt (by bv_omega)
    · exact mergeStep_joinsLeast M.forest M.ordered h

theorem fillHeap_heapOrdered {n : Nat} (hn : n ≤ 256) {b : TreeBuilder} (hb : b.hsize = 0) : (fillHeap n b).heapOrdered := by
  induction n with
  | zero =>
    intro i _ hi
    rw [fillHeap_hsize_toNat hn hb] at hi
    exact absurd hi (Nat.not_lt_zero i)
  | succ n ih =>
    rw [fillHeap_succ]
    exact heapPush_heapOrdered _ (by rw [fillHeap_hsize_toNat (by omega) hb]; omega) (ih (by omega))

theorem queueStore_mergedLeast (freq : Sym → Count) (b : TreeBuilder) :
    (queueStore freq b).MergedLeast (presentSyms freq allSyms).length where
  forest := queueStore_forest freq b
  ordered := fillHeap_heapOrdered (length_presentSyms_le freq) rfl
  joins := fun k hn hk => by
    rw [BitVec.lt_def, queueStore_next_toNat] at hk
    omega

theorem mergedStore_mergedLeast (freq : Sym → Count) (b : TreeBuilder) :
    (mergedStore freq b).MergedLeast (presentSyms freq allSyms).length :=
  mergeLoop_keeps (fun _ h M => M.mergeStep (one_lt_hsize h)) _ _ (queueStore_mergedLeast freq b)

/-- Settles O34: every pass joins the two least roots (`mergeStep_joinsLeast`), and no later pass touches the node it made. -/
theorem buildMergesTheTwoLeastNodes : Obligations.BuildMergesTheTwoLeastNodes := by
  intro s t hp h k hn hk
  obtain rfl := eq_buildModel_of_exec hp h
  rw [buildModel_nsym_toNat] at hn hk ⊢
  have hpos : (presentSyms s.accepted.freqOf allSyms).length ≠ 0 := by omega
  have hlt := (lt_mergedStore_next hpos s.accepted.tb).2 hk
  have M := mergedStore_mergedLeast s.accepted.freqOf s.accepted.tb
  obtain ⟨hleaf, -, -, hw⟩ := M.forest.internal k hn hlt
  have hjoin := (M.joins k hn hlt).congr fun j _ => buildTree_nodeAt hpos s.accepted.tb j
  refine ⟨?_, ?_, hjoin⟩
  · rw [State.buildModel_tb, buildTree_nodeAt hpos]
    exact hleaf
  · simp only [State.buildModel_tb, buildTree_nodeAt hpos]
    exact hw

end Sys2Proof.Machine

/-! ## Optimality (R137)

A code in which no word begins another meets Kraft's inequality. From any lengths that meet it on the queue's roots, a pass of
the merge loop gives lengths that meet it on the next queue's roots, and saves at least the weight of the node it makes; the
tree's own depths save exactly that weight. -/

namespace Sys2Proof.Machine

/-! ### Lengths and weights -/

section Lengths

variable {α : Type}

/-- Kraft's sum of the lengths on a set. -/
noncomputable def kraft (E : Finset α) (len : α → ℕ) : ℝ :=
  ∑ k ∈ E, (1 / 2) ^ len k

/-- The weighted length on a set. -/
def weighted (E : Finset α) (w len : α → ℕ) : ℕ :=
  ∑ k ∈ E, len k * w k

theorem kraft_congr {E : Finset α} {f g : α → ℕ} (h : ∀ k ∈ E, f k = g k) : kraft E f = kraft E g :=
  Finset.sum_congr rfl fun k hk => by rw [h k hk]

theorem weighted_congr {E : Finset α} {v w f g : α → ℕ} (hw : ∀ k ∈ E, v k = w k) (h : ∀ k ∈ E, f k = g k) :
    weighted E v f = weighted E w g :=
  Finset.sum_congr rfl fun k hk => by rw [hw k hk, h k hk]

theorem half_pow_le_kraft {E : Finset α} {a : α} (ha : a ∈ E) (len : α → ℕ) : (1 / 2) ^ len a ≤ kraft E len :=
  Finset.single_le_sum (f := fun k => (1 / 2 : ℝ) ^ len k) (fun _ _ => by positivity) ha

/-- A Kraft sum below 1 leaves room for one more word of the greatest length. -/
theorem kraft_add_longest_le {E : Finset α} {b : α} {len : α → ℕ} (hmax : ∀ k ∈ E, len k ≤ len b) (h : kraft E len < 1) :
    kraft E len + (1 / 2) ^ len b ≤ 1 := by
  have hscale : kraft E len * 2 ^ len b = ((∑ k ∈ E, 2 ^ (len b - len k) : ℕ) : ℝ) := by
    rw [kraft, Finset.sum_mul, Nat.cast_sum]
    refine Finset.sum_congr rfl fun k hk => ?_
    rw [Nat.cast_pow, Nat.cast_ofNat, pow_sub₀ _ two_ne_zero (hmax k hk), one_div, inv_pow, mul_comm]
  have hpos : (0 : ℝ) < 2 ^ len b := by positivity
  have hlt : (∑ k ∈ E, 2 ^ (len b - len k) : ℕ) < 2 ^ len b := by
    have hlt : kraft E len * 2 ^ len b < 1 * 2 ^ len b := mul_lt_mul_of_pos_right h hpos
    rw [hscale, one_mul] at hlt
    exact_mod_cast hlt
  have hle : ((∑ k ∈ E, 2 ^ (len b - len k) : ℕ) : ℝ) + 1 ≤ 2 ^ len b := by exact_mod_cast hlt
  rw [← hscale] at hle
  refine le_of_mul_le_mul_right ?_ hpos
  rwa [add_mul, one_mul, ← mul_pow, one_div, inv_mul_cancel₀ two_ne_zero, one_pow]

variable [DecidableEq α]

theorem kraft_insert {E : Finset α} {c : α} (hc : c ∉ E) (len : α → ℕ) :
    kraft (insert c E) len = (1 / 2) ^ len c + kraft E len :=
  Finset.sum_insert hc

theorem weighted_insert {E : Finset α} {c : α} (hc : c ∉ E) (w len : α → ℕ) :
    weighted (insert c E) w len = len c * w c + weighted E w len :=
  Finset.sum_insert hc

theorem kraft_erase {E : Finset α} {a : α} (ha : a ∈ E) (len : α → ℕ) :
    kraft E len = (1 / 2) ^ len a + kraft (E.erase a) len :=
  (Finset.add_sum_erase E _ ha).symm

theorem weighted_erase {E : Finset α} {a : α} (ha : a ∈ E) (w len : α → ℕ) :
    weighted E w len = len a * w a + weighted (E.erase a) w len :=
  (Finset.add_sum_erase E _ ha).symm

theorem swap_mem {E : Finset α} {u v k : α} (hu : u ∈ E) (hv : v ∈ E) (hk : k ∈ E) : Equiv.swap u v k ∈ E := by
  rw [Equiv.swap_apply_def]
  split
  · exact hv
  · split
    · exact hu
    · exact hk

theorem kraft_swap {E : Finset α} {u v : α} (hu : u ∈ E) (hv : v ∈ E) (len : α → ℕ) :
    kraft E (len ∘ Equiv.swap u v) = kraft E len := by
  refine Equiv.Perm.sum_comp (Equiv.swap u v) E (fun k => (1 / 2 : ℝ) ^ len k) fun k hk => ?_
  rcases (Equiv.swap_apply_ne_self_iff.1 hk).2 with rfl | rfl
  · exact hu
  · exact hv

/-- Giving the greater length to the lower weight costs nothing. -/
theorem weighted_swap_le {E : Finset α} {u v : α} (hu : u ∈ E) (hv : v ∈ E) {w len : α → ℕ} (hw : w u ≤ w v)
    (hl : len u ≤ len v) : weighted E w (len ∘ Equiv.swap u v) ≤ weighted E w len := by
  by_cases huv : u = v
  · rw [huv, Equiv.swap_self]; exact le_rfl
  have hv' : v ∈ E.erase u := Finset.mem_erase.2 ⟨Ne.symm huv, hv⟩
  have hrest : weighted ((E.erase u).erase v) w (len ∘ Equiv.swap u v) = weighted ((E.erase u).erase v) w len := by
    refine weighted_congr (fun _ _ => rfl) fun k hk => ?_
    simp only [Finset.mem_erase] at hk
    rw [Function.comp_apply, Equiv.swap_apply_of_ne_of_ne hk.2.1 hk.1]
  rw [weighted_erase hu, weighted_erase hv', weighted_erase hu w len, weighted_erase hv' w len, hrest]
  simp only [Function.comp_apply, Equiv.swap_apply_left, Equiv.swap_apply_right]
  have := mul_add_mul_le_mul_add_mul hl hw
  omega

/-- Lengths can be exchanged within a set so that an element of least weight has the greatest, at no cost. -/
theorem exists_longest_at {E : Finset α} {a : α} (ha : a ∈ E) {w : α → ℕ} (hmin : ∀ k ∈ E, w a ≤ w k) (len : α → ℕ) :
    ∃ f : α → ℕ, kraft E f = kraft E len ∧ weighted E w f ≤ weighted E w len ∧ (∀ k ∈ E, f k ≤ f a) ∧
      (∀ k ∈ E, ∃ j ∈ E, f k = len j) ∧ ∀ k ∉ E, f k = len k := by
  obtain ⟨v, hv, hmax⟩ := Finset.exists_max_image E len ⟨a, ha⟩
  refine ⟨len ∘ Equiv.swap a v, kraft_swap ha hv len, weighted_swap_le ha hv (hmin v hv) (hmax a ha), fun k hk => ?_,
    fun k hk => ⟨_, swap_mem ha hv hk, rfl⟩, fun k hk => ?_⟩
  · rw [Function.comp_apply, Function.comp_apply, Equiv.swap_apply_left]
    exact hmax _ (swap_mem ha hv hk)
  · rw [Function.comp_apply, Equiv.swap_apply_of_ne_of_ne]
    · rintro rfl; exact hk ha
    · rintro rfl; exact hk hv

/-- Merging two elements of least weight into one of some length `m` saves at least their weights. -/
theorem exists_merged_lengths {E : Finset α} {a b : α} (ha : a ∈ E) (hb : b ∈ E) (hab : a ≠ b) {w : α → ℕ}
    (hmina : ∀ k ∈ E, w a ≤ w k) (hminb : ∀ k ∈ E, k ≠ a → w b ≤ w k) {len : α → ℕ} (hk : kraft E len ≤ 1) :
    ∃ (g : α → ℕ) (m : ℕ), (1 / 2) ^ m + kraft ((E.erase a).erase b) g ≤ 1 ∧
      m * (w a + w b) + weighted ((E.erase a).erase b) w g + (w a + w b) ≤ weighted E w len := by
  have hb' : b ∈ E.erase a := Finset.mem_erase.2 ⟨Ne.symm hab, hb⟩
  obtain ⟨f, hkf, hcf, hmaxa, -, -⟩ := exists_longest_at ha hmina len
  obtain ⟨g, hkg, hcg, hmaxb, hfrom, hga⟩ := exists_longest_at hb'
    (fun k hk => hminb k (Finset.mem_of_mem_erase hk) (Finset.ne_of_mem_erase hk)) f
  have hga := hga a (Finset.notMem_erase a E)
  have hle : g b ≤ g a := by
    obtain ⟨j, hj, hgb⟩ := hfrom b hb'
    rw [hgb, hga]
    exact hmaxa j (Finset.mem_of_mem_erase hj)
  have hlt : kraft (E.erase a) g < 1 := by
    have hpos : (0 : ℝ) < (1 / 2) ^ f a := by positivity
    rw [kraft_erase ha, ← hkg] at hkf
    linarith
  have hroom := kraft_add_longest_le hmaxb hlt
  obtain ⟨m, hm⟩ : ∃ m, g b = m + 1 := by
    refine Nat.exists_eq_succ_of_ne_zero fun h0 => ?_
    have hhalf := half_pow_le_kraft hb' g
    rw [h0, pow_zero] at hhalf
    exact absurd hhalf (not_le.2 hlt)
  refine ⟨g, m, ?_, ?_⟩
  · rw [kraft_erase hb', hm, pow_succ] at hroom
    linarith
  · have hcost : g b * w a ≤ f a * w a := Nat.mul_le_mul_right _ (hga ▸ hle)
    rw [weighted_erase ha] at hcf
    rw [weighted_erase hb' w g, hm] at hcg
    rw [hm] at hcost
    linarith

end Lengths

/-! ### Kraft's inequality -/

/-- Words of which none is empty and none begins another can be told apart in a row. -/
theorem uniquelyDecodable_of_prefixFree {S : Set (List Bool)} (hnil : [] ∉ S)
    (hfree : ∀ u ∈ S, ∀ v ∈ S, u <+: v → u = v) : InformationTheory.UniquelyDecodable S := by
  have hempty {L : List (List Bool)} (hL : ∀ w ∈ L, w ∈ S) (h : L.flatten = []) : L = [] := by
    cases L with
    | nil => rfl
    | cons u L =>
      rw [List.flatten_cons, List.append_eq_nil_iff] at h
      exact absurd (h.1 ▸ hL u List.mem_cons_self) hnil
  intro L
  induction L with
  | nil => exact fun M _ hM h => (hempty hM h.symm).symm
  | cons u L ih =>
    intro M hL hM h
    cases M with
    | nil => exact hempty hL h
    | cons v M =>
      rw [List.flatten_cons, List.flatten_cons] at h
      have hu := hL u List.mem_cons_self
      have hv := hM v List.mem_cons_self
      have huv : u = v := by
        rcases List.prefix_or_prefix_of_prefix ⟨_, h⟩ ⟨_, rfl⟩ with hpre | hpre
        · exact hfree u hu v hv hpre
        · exact (hfree v hv u hu hpre).symm
      subst huv
      rw [ih M (fun w hw => hL w (List.mem_cons_of_mem _ hw)) (fun w hw => hM w (List.mem_cons_of_mem _ hw))
        (List.append_cancel_left h)]

/-- A code of at least two symbols in which no word begins another meets Kraft's inequality. -/
theorem kraft_le_one_of_prefixFree {present : Sym → Prop} {E : Finset Sym} (hE : ∀ x, x ∈ E ↔ present x)
    {code : Sym → List Bool} (hfree : prefixFree present code) (htwo : ∃ x ∈ E, ∃ y ∈ E, x ≠ y) :
    kraft E (fun x => (code x).length) ≤ 1 := by
  have heq {x y : Sym} (hx : x ∈ E) (hy : y ∈ E) (h : code x <+: code y) : x = y :=
    by_contra fun hne => hfree x y ((hE x).1 hx) ((hE y).1 hy) hne h
  have hinj : Set.InjOn code E := fun x hx y hy h => heq hx hy (h ▸ List.prefix_refl _)
  have hdec : InformationTheory.UniquelyDecodable (E.image code : Set (List Bool)) := by
    refine uniquelyDecodable_of_prefixFree (fun hnil => ?_) fun u hu v hv huv => ?_
    · obtain ⟨x, hx, hcode⟩ := Finset.mem_image.1 hnil
      have hall {y : Sym} (hy : y ∈ E) : x = y := heq hx hy (hcode ▸ List.nil_prefix)
      obtain ⟨y, hy, z, hz, hne⟩ := htwo
      exact hne ((hall hy).symm.trans (hall hz))
    · obtain ⟨x, hx, rfl⟩ := Finset.mem_image.1 hu
      obtain ⟨y, hy, rfl⟩ := Finset.mem_image.1 hv
      rw [heq hx hy huv]
  have hkraft := InformationTheory.kraft_mcmillan_inequality hdec
  rwa [Finset.sum_image hinj, Fintype.card_bool, Nat.cast_ofNat] at hkraft

/-! ### Depths in the tree (R130) -/

namespace TreeBuilder.IsTree

variable {n : Nat} {root : NodeIdx} {b : TreeBuilder} (T : b.IsTree n root)
include T

/-- At most one path leads from the root to a node. -/
theorem path_unique {p q : List Bool} {k : NodeIdx} (hp : b.follow p root = some k) (hq : b.follow q root = some k) :
    p = q := by
  have hroot {p : List Bool} {c : Bool} (h : b.follow (p ++ [c]) root = some root) : False := by
    obtain ⟨j, hj, hint, hc⟩ := follow_concat_eq_some.1 h
    have hlt := T.follow_lt T.root_lt hj
    have := T.child_lt j c (T.le_of_internal hint) hlt
    rw [hc, T.root_eq] at this
    omega
  induction p using List.reverseRecOn generalizing q k with
  | nil =>
    cases hp
    rcases List.eq_nil_or_concat' q with rfl | ⟨q, c, rfl⟩
    · rfl
    · exact (hroot hq).elim
  | append_singleton p c ih =>
    rcases List.eq_nil_or_concat' q with rfl | ⟨q, d, rfl⟩
    · cases hq
      exact (hroot hp).elim
    · obtain ⟨i, hi, hinti, hci⟩ := follow_concat_eq_some.1 hp
      obtain ⟨j, hj, hintj, hcj⟩ := follow_concat_eq_some.1 hq
      obtain ⟨rfl, rfl⟩ := T.one_parent i j c d (T.le_of_internal hinti) (T.follow_lt T.root_lt hi)
        (T.le_of_internal hintj) (T.follow_lt T.root_lt hj) (hci.trans hcj.symm)
      rw [ih hi hj]

/-- Every node has a depth, the length of the paths to it. -/
theorem exists_depth : ∃ d : NodeIdx → ℕ, ∀ k p, b.follow p root = some k → d k = p.length := by
  have hdepth (k : NodeIdx) : ∃ m, ∀ p, b.follow p root = some k → m = p.length := by
    by_cases h : ∃ p, b.follow p root = some k
    · obtain ⟨p, hp⟩ := h
      exact ⟨p.length, fun q hq => by rw [T.path_unique hp hq]⟩
    · exact ⟨0, fun p hp => absurd ⟨p, hp⟩ h⟩
  choose d hd using hdepth
  exact ⟨d, hd⟩

end TreeBuilder.IsTree

/-! ### The merge loop against any other lengths -/

/-- The node's weight as a number. -/
def TreeBuilder.weightOf (b : TreeBuilder) (k : NodeIdx) : ℕ :=
  (b.nodeAt k).weight.toNat

/-- The queue as a set. -/
def TreeBuilder.roots (b : TreeBuilder) : Finset NodeIdx :=
  b.entries.toFinset

theorem TreeBuilder.mem_roots {b : TreeBuilder} {k : NodeIdx} : k ∈ b.roots ↔ k ∈ b.entries :=
  List.mem_toFinset

/-- The nodes below `n`. -/
def leafSet (n : Nat) : Finset NodeIdx :=
  Finset.univ.filter fun k => k.toNat < n

theorem mem_leafSet {n : Nat} {k : NodeIdx} : k ∈ leafSet n ↔ k.toNat < n := by
  simp [leafSet]

/-- Each internal node's children are one step deeper than the node. -/
def TreeBuilder.depths (n : Nat) (b : TreeBuilder) (d : NodeIdx → ℕ) : Prop :=
  ∀ (k : NodeIdx) (c : Bool), n ≤ k.toNat → k < b.next → d (b.child k c) = d k + 1

/-- Whatever lengths on the leaves meet Kraft's inequality, some on the roots do, and the tree's depths `d` below the roots weigh
no more than the given lengths below them. -/
def TreeBuilder.noLonger (n : Nat) (b : TreeBuilder) : Prop :=
  ∀ d len : NodeIdx → ℕ, b.depths n d → kraft (leafSet n) len ≤ 1 →
    ∃ f : NodeIdx → ℕ, kraft b.roots f ≤ 1 ∧
      weighted b.roots b.weightOf f + weighted (leafSet n) b.weightOf d ≤
        weighted (leafSet n) b.weightOf len + weighted b.roots b.weightOf d

theorem weightOf_mergeStep_of_lt {b : TreeBuilder} {k : NodeIdx} (hk : k < b.next) :
    (mergeStep b).weightOf k = b.weightOf k := by
  rw [TreeBuilder.weightOf, nodeAt_mergeStep_of_lt hk, TreeBuilder.weightOf]

section Pass

variable {n : Nat} {b : TreeBuilder} (F : b.Forest n) (h : 2 ≤ b.hsize.toNat)
include F h

/-- The roots that a pass leaves in the queue. -/
theorem roots_mergeStep :
    (mergeStep b).roots = insert b.next ((b.roots.erase (mergeLeft b)).erase (mergeRight b)) := by
  ext k
  rw [TreeBuilder.mem_roots, F.mergeStep_mem_entries h]
  simp only [Finset.mem_insert, Finset.mem_erase, TreeBuilder.mem_roots]
  tauto

theorem depths_of_mergeStep {d : NodeIdx → ℕ} (hd : (mergeStep b).depths n d) : b.depths n d := fun k c hn hk => by
  rw [← child_mergeStep_of_lt hk]
  exact hd k c hn ((F.lt_mergeStep_next h).2 (.inl hk))

/-- A weighted length after a pass, in the weights from before it. -/
theorem weighted_roots_mergeStep (hfit : b.weightSum b.entries < 2 ^ 32) (f : NodeIdx → ℕ) :
    weighted (mergeStep b).roots (mergeStep b).weightOf f =
      f b.next * (b.weightOf (mergeLeft b) + b.weightOf (mergeRight b)) +
        weighted ((b.roots.erase (mergeLeft b)).erase (mergeRight b)) b.weightOf f := by
  have hlt {k : NodeIdx} (hk : k ∈ (b.roots.erase (mergeLeft b)).erase (mergeRight b)) : k < b.next :=
    F.lt_next_of_mem (TreeBuilder.mem_roots.1 (Finset.mem_of_mem_erase (Finset.mem_of_mem_erase hk)))
  rw [roots_mergeStep F h, weighted_insert fun hk => absurd (hlt hk) (BitVec.lt_irrefl _),
    weighted_congr (fun k hk => weightOf_mergeStep_of_lt (hlt hk)) fun _ _ => rfl]
  exact congrArg (f b.next * · + _) (F.mergeStep_weight h hfit)

/-- The new node's children lie one step below it. -/
theorem weighted_roots_of_depths {d : NodeIdx → ℕ} (hd : (mergeStep b).depths n d) :
    weighted b.roots b.weightOf d = (d b.next + 1) * (b.weightOf (mergeLeft b) + b.weightOf (mergeRight b)) +
      weighted ((b.roots.erase (mergeLeft b)).erase (mergeRight b)) b.weightOf d := by
  have hdepth (c : Bool) : d (if c then mergeRight b else mergeLeft b) = d b.next + 1 := by
    rw [← F.child_mergeStep_next h c]
    exact hd b.next c F.le_next ((F.lt_mergeStep_next h).2 (.inr rfl))
  have hl : d (mergeLeft b) = d b.next + 1 := hdepth false
  have hr : d (mergeRight b) = d b.next + 1 := hdepth true
  have hmem : mergeRight b ∈ b.roots.erase (mergeLeft b) :=
    Finset.mem_erase.2 ⟨(F.mergeLeft_ne_mergeRight h).symm, TreeBuilder.mem_roots.2 (F.mergeRight_mem h)⟩
  rw [weighted_erase (TreeBuilder.mem_roots.2 (F.mergeLeft_mem h)), weighted_erase hmem, hl, hr]
  ring

/-- Lengths on the roots give lengths on the roots after a pass that save at least the new node's weight (R125, R137). -/
theorem exists_lengths_mergeStep (ho : b.heapOrdered) (hfit : b.weightSum b.entries < 2 ^ 32) {f : NodeIdx → ℕ}
    (hk : kraft b.roots f ≤ 1) :
    ∃ g : NodeIdx → ℕ, kraft (mergeStep b).roots g ≤ 1 ∧
      weighted (mergeStep b).roots (mergeStep b).weightOf g + (b.weightOf (mergeLeft b) + b.weightOf (mergeRight b)) ≤
        weighted b.roots b.weightOf f := by
  have hminl (k : NodeIdx) (hk : k ∈ b.roots) : b.weightOf (mergeLeft b) ≤ b.weightOf k := by
    by_cases hkl : k = mergeLeft b
    · rw [hkl]
    · exact TreeBuilder.weight_le_of_less (less_mergeLeft ho (TreeBuilder.mem_roots.1 hk) hkl)
  have hminr (k : NodeIdx) (hk : k ∈ b.roots) (hkl : k ≠ mergeLeft b) : b.weightOf (mergeRight b) ≤ b.weightOf k := by
    by_cases hkr : k = mergeRight b
    · rw [hkr]
    · exact TreeBuilder.weight_le_of_less (less_mergeRight F ho h (TreeBuilder.mem_roots.1 hk) hkl hkr)
  obtain ⟨g, m, hkg, hcost⟩ := exists_merged_lengths (TreeBuilder.mem_roots.2 (F.mergeLeft_mem h))
    (TreeBuilder.mem_roots.2 (F.mergeRight_mem h)) (F.mergeLeft_ne_mergeRight h) hminl hminr hk
  have hnext : b.next ∉ (b.roots.erase (mergeLeft b)).erase (mergeRight b) := fun hk =>
    absurd (F.lt_next_of_mem (TreeBuilder.mem_roots.1 (Finset.mem_of_mem_erase (Finset.mem_of_mem_erase hk))))
      (BitVec.lt_irrefl _)
  have hkeep (k : NodeIdx) (hk : k ∈ (b.roots.erase (mergeLeft b)).erase (mergeRight b)) :
      Function.update g b.next m k = g k :=
    Function.update_of_ne (by rintro rfl; exact hnext hk) _ _
  refine ⟨Function.update g b.next m, ?_, ?_⟩
  · rwa [roots_mergeStep F h, kraft_insert hnext, Function.update_self, kraft_congr hkeep]
  · rwa [weighted_roots_mergeStep F h hfit, Function.update_self, weighted_congr (fun _ _ => rfl) hkeep]

/-- A pass keeps the comparison: it saves the new node's weight in the tree's depths, and no less in the other lengths. -/
theorem TreeBuilder.noLonger.mergeStep (ho : b.heapOrdered) (hfit : b.weightSum b.entries < 2 ^ 32) (hb : b.noLonger n) :
    (mergeStep b).noLonger n := by
  intro d len hd hk
  obtain ⟨f, hkf, hf⟩ := hb d len (depths_of_mergeStep F h hd) hk
  obtain ⟨g, hkg, hg⟩ := exists_lengths_mergeStep F h ho hfit hkf
  have hleaves (e : NodeIdx → ℕ) :
      weighted (leafSet n) (Machine.mergeStep b).weightOf e = weighted (leafSet n) b.weightOf e :=
    weighted_congr (fun k hk => weightOf_mergeStep_of_lt
      (BitVec.lt_def.2 ((mem_leafSet.1 hk).trans_le F.le_next))) fun _ _ => rfl
  refine ⟨g, hkg, ?_⟩
  rw [weighted_roots_of_depths F h hd, add_mul, one_mul] at hf
  rw [hleaves, hleaves, weighted_roots_mergeStep F h hfit d]
  omega

end Pass

/-- After the heap fill the roots are the leaves, so nothing is saved yet. -/
theorem queueStore_noLonger (freq : Sym → Count) (b : TreeBuilder) :
    (queueStore freq b).noLonger (presentSyms freq allSyms).length := by
  have hnext := queueStore_next_toNat freq b
  have hroots : (queueStore freq b).roots = leafSet (presentSyms freq allSyms).length := by
    ext k
    rw [TreeBuilder.mem_roots, (queueStore_forest freq b).mem_entries, mem_leafSet, TreeBuilder.queued, BitVec.lt_def,
      hnext]
    refine and_iff_left fun p hn hp => ?_
    rw [BitVec.lt_def] at hp
    omega
  intro d len _ hk
  exact ⟨len, by rwa [hroots], by rw [hroots]⟩

theorem mergedStore_noLonger (freq : Sym → Count) (b : TreeBuilder)
    (hfit : (allSyms.map fun x => (freq x).toNat).sum < 2 ^ 32) :
    (mergedStore freq b).noLonger (presentSyms freq allSyms).length := by
  have hkeep := mergeLoop_keeps
    (P := fun c => c.MergedLeast (presentSyms freq allSyms).length ∧ c.weightSum c.entries < 2 ^ 32 ∧
      c.noLonger (presentSyms freq allSyms).length)
    (fun c h ⟨M, hsum, hc⟩ =>
      have h := one_lt_hsize h
      ⟨M.mergeStep h, by rwa [M.forest.mergeStep_weightSum h hsum], hc.mergeStep M.forest h M.ordered hsum⟩)
  exact (hkeep _ _ ⟨queueStore_mergedLeast freq b, by rwa [queueStore_weightSum], queueStore_noLonger freq b⟩).2.2

/-- No lengths on the leaves that meet Kraft's inequality weigh less than the leaves' depths in the built tree. -/
theorem weighted_depth_le {freq : Sym → Count} (hpos : (presentSyms freq allSyms).length ≠ 0) (b : TreeBuilder)
    (hfit : (allSyms.map fun x => (freq x).toNat).sum < 2 ^ 32) {d len : NodeIdx → ℕ}
    (hd : ∀ k p, (buildTree freq b).tb.follow p (buildTree freq b).root = some k → d k = p.length)
    (hk : kraft (leafSet (presentSyms freq allSyms).length) len ≤ 1) :
    weighted (leafSet (presentSyms freq allSyms).length) (buildTree freq b).tb.weightOf d ≤
      weighted (leafSet (presentSyms freq allSyms).length) (buildTree freq b).tb.weightOf len := by
  have T := buildTree_isTree hpos b
  have hdepths : (mergedStore freq b).depths (presentSyms freq allSyms).length d := by
    intro k c hn hk
    have hk := (lt_mergedStore_next hpos b).1 hk
    obtain ⟨p, hp⟩ := T.exists_path k hk
    have hchild : (mergedStore freq b).child k c = (buildTree freq b).tb.child k c := by
      simp only [TreeBuilder.child, buildTree_nodeAt hpos]
    rw [hchild, hd k p hp, hd _ (p ++ [c]) (TreeBuilder.follow_concat_eq_some.2 ⟨k, hp, T.internal k hn hk, rfl⟩)]
    simp
  have hweight : (buildTree freq b).tb.weightOf = (mergedStore freq b).weightOf := by
    funext k
    rw [TreeBuilder.weightOf, buildTree_nodeAt hpos, TreeBuilder.weightOf]
  obtain ⟨f, -, hf⟩ := mergedStore_noLonger freq b hfit d len hdepths hk
  have hroot : weighted (mergedStore freq b).roots (mergedStore freq b).weightOf d = 0 := by
    rw [TreeBuilder.roots, mergedStore_entries hpos]
    simp [weighted, hd _ [] rfl]
  rw [hweight]
  omega

/-! ### The built code (R137) -/

section BuiltCode

variable (s : State)

theorem buildModel_sym_injOn : Set.InjOn (fun k => (s.buildModel.tb.nodeAt k).sym) (leafSet s.buildModel.nsym.toNat) := by
  intro j hj k hk hjk
  have hj := mem_leafSet.1 hj
  have hk := mem_leafSet.1 hk
  rcases Nat.lt_trichotomy j.toNat k.toNat with h | h | h
  · exact absurd hjk (BitVec.ne_of_lt (buildModel_leaf_order s h hk))
  · exact BitVec.eq_of_toNat_eq h
  · exact absurd hjk.symm (BitVec.ne_of_lt (buildModel_leaf_order s h hj))

/-- The symbols present are those of the leaves (R121). -/
theorem present_iff_mem_image (x : Sym) :
    x ∈ (leafSet s.buildModel.nsym.toNat).image (fun k => (s.buildModel.tb.nodeAt k).sym) ↔ s.freqOf x ≠ 0 := by
  rw [Finset.mem_image]
  constructor
  · rintro ⟨k, hk, rfl⟩
    exact (buildModel_leaf s k (mem_leafSet.1 hk)).2.2
  · intro hx
    obtain ⟨k, hk, hsym⟩ := buildModel_leaf_of_present s hx
    exact ⟨k, mem_leafSet.2 hk, hsym⟩

theorem sum_map_allSyms_eq (f : Sym → ℕ) : (allSyms.map f).sum = ∑ x, f x := by
  have hnodup : allSyms.Nodup := allSyms_pairwise_lt.imp BitVec.ne_of_lt
  rw [← List.sum_toFinset f hnodup, Finset.eq_univ_of_forall fun x => List.mem_toFinset.2 (mem_allSyms x)]

/-- A code's weighted length, summed over the leaves. -/
theorem weightedLength_eq_weighted (len : Sym → ℕ) :
    s.weightedLength len = weighted (leafSet s.buildModel.nsym.toNat) s.buildModel.tb.weightOf
      fun k => len (s.buildModel.tb.nodeAt k).sym := by
  have habsent (x : Sym)
      (hx : x ∉ (leafSet s.buildModel.nsym.toNat).image (fun k => (s.buildModel.tb.nodeAt k).sym)) :
      len x * (s.freqOf x).toNat = 0 := by
    rw [not_not.1 (mt (present_iff_mem_image s x).2 hx)]
    rfl
  rw [State.weightedLength, sum_map_allSyms_eq,
    ← Finset.sum_subset (Finset.subset_univ _) fun x _ hx => habsent x hx, Finset.sum_image (buildModel_sym_injOn s)]
  refine Finset.sum_congr rfl fun k hk => ?_
  rw [TreeBuilder.weightOf, (buildModel_leaf s k (mem_leafSet.1 hk)).2.1]

/-- In a tree a leaf's depth is the length of its symbol's codeword. -/
theorem depth_eq_lenOf (h : 2 ≤ s.buildModel.nsym.toNat) {d : NodeIdx → ℕ}
    (hd : ∀ k p, s.buildModel.tb.follow p s.buildModel.root = some k → d k = p.length) {k : NodeIdx}
    (hk : k ∈ leafSet s.buildModel.nsym.toNat) :
    d k = (s.buildModel.ct.lenOf (s.buildModel.tb.nodeAt k).sym).toNat := by
  obtain ⟨j, hj, hsym, hfollow⟩ := buildModel_follow_codeword s h (buildModel_leaf s k (mem_leafSet.1 hk)).2.2
  obtain rfl := buildModel_sym_injOn s (mem_leafSet.2 hj) hk hsym
  rw [hd j _ hfollow, CodeTable.length_codeword]

/-- A code of the symbols present in which no word begins another gives the leaves lengths that meet Kraft's inequality. -/
theorem kraft_leafSet_le_one (h : 2 ≤ s.buildModel.nsym.toNat) {code : Sym → List Bool}
    (hfree : prefixFree (fun x => s.freqOf x ≠ 0) code) :
    kraft (leafSet s.buildModel.nsym.toNat) (fun k => (code (s.buildModel.tb.nodeAt k).sym).length) ≤ 1 := by
  have hinj := buildModel_sym_injOn s
  have h0 : (0 : NodeIdx) ∈ leafSet s.buildModel.nsym.toNat := mem_leafSet.2 (by change 0 < _; omega)
  have h1 : (1 : NodeIdx) ∈ leafSet s.buildModel.nsym.toNat := mem_leafSet.2 (by change 1 < _; omega)
  have hkraft := kraft_le_one_of_prefixFree (present_iff_mem_image s) hfree
    ⟨_, Finset.mem_image_of_mem _ h0, _, Finset.mem_image_of_mem _ h1, hinj.ne h0 h1 (by decide)⟩
  rwa [kraft, Finset.sum_image hinj] at hkraft

end BuiltCode

/-- Settles O37: both weighted lengths are sums over the leaves (`weightedLength_eq_weighted`), where the other code's meet Kraft's
inequality (`kraft_leafSet_le_one`) and the built code's are the tree's depths (`weighted_depth_le`). -/
theorem builtCodeIsOptimal : Obligations.BuiltCodeIsOptimal := by
  intro s t hp hsum h hn code hfree
  obtain rfl := eq_buildModel_of_exec hp h
  have hn : 2 ≤ s.accepted.buildModel.nsym.toNat := hn
  have hlen := buildModel_nsym_toNat s.accepted
  have hfit : (allSyms.map fun x => (s.freqOf x).toNat).sum < 2 ^ 32 := hsum ▸ s.total.isLt
  obtain ⟨d, hd⟩ := (buildModel_isTree s.accepted (by omega)).exists_depth
  have hkraft := kraft_leafSet_le_one s.accepted hn hfree
  have hpos : (presentSyms s.accepted.freqOf allSyms).length ≠ 0 := by omega
  change State.weightedLength s.accepted _ ≤ State.weightedLength s.accepted _
  rw [weightedLength_eq_weighted, weightedLength_eq_weighted,
    ← weighted_congr (fun _ _ => rfl) fun k hk => depth_eq_lenOf s.accepted hn hd hk]
  rw [hlen] at hkraft ⊢
  exact weighted_depth_le hpos s.accepted.tb hfit hd hkraft

end Sys2Proof.Machine

/-! ## GET_CODE and the encode transaction (R150 to R157) -/

namespace Sys2Proof.Machine

/-! ### GET_CODE, ENC_BEGIN, DEC_BEGIN and ENC_END (R151, R152, R155, R171) -/

theorem encode_getCode (x : Sym) : encode (.getCode x) = 0x04000000 ||| x.zeroExtend 32 :=
  word_eq_or 0x04 x

/-- Settles O39: the word by `encode_getCode`, the two answers by whether GET_CODE is legal. -/
theorem getCodeReadsTheCodeTable : Obligations.GetCodeReadsTheCodeTable := by
  refine fun x => ⟨fun w => ?_, fun s => ⟨fun hp => ?_, fun hp => ?_⟩⟩
  · rw [decode_eq_ok_iff, encode_getCode, eq_comm]
  · exact exec_of_legal (beq_iff_eq.2 hp)
  · exact exec_of_illegal (beq_eq_false_iff_ne.2 hp)

/-- ENC_BEGIN in READY answers the accepted state with the transaction's registers at 0 (R152). -/
theorem exec_encBegin_of_ready {s : State} (hp : s.phase = .ready) :
    exec .encBegin s = .next { s.accepted.beginTxn with phase := .enc } :=
  exec_of_legal (beq_iff_eq.2 hp)

/-- ENC_END in ENC commits the accepted state (R155). -/
theorem exec_encEnd_of_enc {s : State} (hp : s.phase = .enc) :
    exec .encEnd s = .next { s.accepted.commit with phase := .ready } :=
  exec_of_legal (beq_iff_eq.2 hp)

/-- Settles O40: the words by `decode_eq_ok_iff`, the answers by whether the two commands are legal. -/
theorem beginOpensATransaction : Obligations.BeginOpensATransaction := by
  refine ⟨fun w => ⟨decode_eq_ok_iff.trans eq_comm, decode_eq_ok_iff.trans eq_comm⟩,
    fun s => ⟨fun hp => ⟨?_, ?_⟩, fun hp => ⟨?_, ?_⟩⟩⟩
  · exact exec_encBegin_of_ready hp
  · exact exec_of_legal (beq_iff_eq.2 hp)
  · exact exec_of_illegal (beq_eq_false_iff_ne.2 hp)
  · exact exec_of_illegal (beq_eq_false_iff_ne.2 hp)

/-- Settles O42: ENC_END is the commit of R156, by whether a data error is latched. -/
theorem encEndCommitsResultOrFailure : Obligations.EncEndCommitsResultOrFailure := by
  refine ⟨fun w => decode_eq_ok_iff.trans eq_comm, fun s => ⟨fun hp he => ?_, fun hp he => ?_, fun hp => ?_⟩⟩
  · rw [exec_encEnd_of_enc hp, State.commit_of_ok (s := s.accepted) he]; rfl
  · rw [exec_encEnd_of_enc hp, State.commit_of_failed (s := s.accepted) he]; rfl
  · exact exec_of_illegal (beq_eq_false_iff_ne.2 hp)

/-! ### ENC_SYM, one equation per outcome (R153, R207) -/

theorem encode_encSym (x : Sym) : encode (.encSym x) = 0x06000000 ||| x.zeroExtend 32 :=
  word_eq_or 0x06 x

/-- The state after ENC_SYM x has appended x's codeword at WORK_LEN (R153). -/
def State.withCode (x : Sym) (s : State) : State :=
  { s with
    outbuf := shiftOut s.outbuf s.workLen.toNat (s.ct.bitsOf x) (s.ct.lenOf x).toNat
    workLen := s.workLen + BitVec.ofNat 17 (s.ct.lenOf x).toNat }

theorem toNat_ne_zero {n : BitVec 8} (h : n ≠ 0) : n.toNat ≠ 0 :=
  fun h0 => h (BitVec.eq_of_toNat_eq h0)

section EncSym

variable {s : State} (hp : s.phase = .enc)
include hp

theorem exec_encSym_of_enc (x : Sym) : exec (.encSym x) s = .next (transact (State.appendCode x) s.accepted) :=
  exec_of_legal (beq_iff_eq.2 hp)

theorem exec_encSym_of_failed (he : s.txnErr ≠ .none) (x : Sym) : exec (.encSym x) s = .next s.accepted := by
  rw [exec_encSym_of_enc hp, transact_of_failed (s := s.accepted) he]

theorem exec_encSym_of_unknown (he : s.txnErr = .none) {x : Sym} (hx : s.ct.lenOf x = 0) :
    exec (.encSym x) s = .next (s.accepted.raiseTxnError .unknownSymbol) := by
  rw [exec_encSym_of_enc hp, transact_of_error (s := s.accepted) he
    (State.appendCode_of_unknown (congrArg BitVec.toNat hx))]

theorem exec_encSym_of_full (he : s.txnErr = .none) {x : Sym} (hx : s.ct.lenOf x ≠ 0)
    (hfull : Config.outCap < s.workLen.toNat + (s.ct.lenOf x).toNat) :
    exec (.encSym x) s = .next (s.accepted.raiseTxnError .outputOverflow) := by
  rw [exec_encSym_of_enc hp, transact_of_error (s := s.accepted) he
    (State.appendCode_of_full (toNat_ne_zero hx) hfull)]

theorem exec_encSym_of_fits (he : s.txnErr = .none) {x : Sym} (hx : s.ct.lenOf x ≠ 0)
    (hfit : s.workLen.toNat + (s.ct.lenOf x).toNat ≤ Config.outCap) :
    exec (.encSym x) s = .next (s.accepted.withCode x) := by
  rw [exec_encSym_of_enc hp, transact_of_ok (s := s.accepted) he
    (State.appendCode_of_fits (toNat_ne_zero hx) hfit)]
  rfl

end EncSym

theorem exec_encSym_of_ne_enc {s : State} (hp : s.phase ≠ .enc) (x : Sym) :
    exec (.encSym x) s = .next { s with cmdErr := .badPhase } :=
  exec_of_illegal (beq_eq_false_iff_ne.2 hp)

/-! ### What appending a codeword leaves in OUTBUF (R153, R154) -/

section WithCode

variable {s : State} (x : Sym)

theorem withCode_workLen_toNat (hfit : s.workLen.toNat + (s.ct.lenOf x).toNat ≤ Config.outCap) :
    (s.withCode x).workLen.toNat = s.workLen.toNat + (s.ct.lenOf x).toNat :=
  workLen_add_toNat hfit

variable (hwf : s.outbuf.wf = true)
include hwf

theorem withCode_read_of_inside {i : Nat} (hi : i < (s.ct.lenOf x).toNat) :
    (s.withCode x).outbuf.read (s.workLen.toNat + i) = bitToken ((s.ct.bitsOf x).getLsbD i) :=
  (Memory.read_shiftOut_of_inside hwf (Nat.le_add_right _ i) (Nat.add_lt_add_left hi _) _).trans
    (by rw [Nat.add_sub_cancel_left])

theorem withCode_read_of_outside {a : Nat}
    (ha : a < s.workLen.toNat ∨ s.workLen.toNat + (s.ct.lenOf x).toNat ≤ a) :
    (s.withCode x).outbuf.read a = s.outbuf.read a :=
  Memory.read_shiftOut_of_outside hwf (by omega) _

end WithCode

/-- Settles O41: one equation of ENC_SYM per outcome, and the bytes of an appended codeword by `withCode_read_of_inside` and
`withCode_read_of_outside`. -/
theorem encSymAppendsTheCodeword : Obligations.EncSymAppendsTheCodeword := by
  refine fun x => ⟨fun w => ?_, fun s => ⟨fun hp he => exec_encSym_of_failed hp he x,
    fun hp he hx => exec_encSym_of_unknown hp he hx, fun hp he hx hfull => exec_encSym_of_full hp he hx hfull,
    fun hp he hx hwf hfit => ?_, fun hp => exec_encSym_of_ne_enc hp x⟩⟩
  · rw [decode_eq_ok_iff, encode_encSym, eq_comm]
  · refine ⟨_, exec_encSym_of_fits hp he hx hfit, rfl, withCode_workLen_toNat (s := s.accepted) x hfit,
      fun i hi => ?_, fun a ha => withCode_read_of_outside (s := s.accepted) x hwf ha⟩
    exact (withCode_read_of_inside (s := s.accepted) x hwf hi).trans (bitToken_eq _)

/-! ### The encoder as a function of the code table (R154, R157) -/

/-- The encoder without the machine: the output so far, or the first data error, after one more symbol (R153, R207). -/
def CodeTable.encodeNext (t : CodeTable) (x : Sym) : Except TxnErr (List Byte) → Except TxnErr (List Byte)
  | .error e => .error e
  | .ok out =>
    if t.lenOf x = 0 then .error .unknownSymbol
    else if Config.outCap < out.length + (t.lenOf x).toNat then .error .outputOverflow
    else .ok (out ++ t.tokens [x])

/-- The output of an input, or the input's first data error. -/
def CodeTable.encodeInput (t : CodeTable) (xs : List Sym) : Except TxnErr (List Byte) :=
  xs.foldl (fun r x => t.encodeNext x r) (.ok [])

theorem CodeTable.encodeInput_concat (t : CodeTable) (xs : List Sym) (x : Sym) :
    t.encodeInput (xs ++ [x]) = t.encodeNext x (t.encodeInput xs) :=
  List.foldl_concat ..

theorem CodeTable.tokens_singleton (t : CodeTable) (x : Sym) :
    t.tokens [x] = (List.range (t.lenOf x).toNat).map fun i => bitToken ((t.bitsOf x).getLsbD i) := by
  simp [CodeTable.tokens, CodeTable.codeword]

theorem CodeTable.length_tokens_singleton (t : CodeTable) (x : Sym) : (t.tokens [x]).length = (t.lenOf x).toNat := by
  simp [CodeTable.tokens_singleton]

theorem CodeTable.tokens_append (t : CodeTable) (xs ys : List Sym) :
    t.tokens (xs ++ ys) = t.tokens xs ++ t.tokens ys := by
  simp [CodeTable.tokens]

section EncodeNext

variable {t : CodeTable} {x : Sym} {o : List Byte}

theorem CodeTable.encodeNext_of_unknown (hx : t.lenOf x = 0) : t.encodeNext x (.ok o) = .error .unknownSymbol :=
  if_pos hx

theorem CodeTable.encodeNext_of_full (hx : t.lenOf x ≠ 0) (hfull : Config.outCap < o.length + (t.lenOf x).toNat) :
    t.encodeNext x (.ok o) = .error .outputOverflow :=
  (if_neg hx).trans (if_pos hfull)

theorem CodeTable.encodeNext_of_fits (hx : t.lenOf x ≠ 0) (hfit : o.length + (t.lenOf x).toNat ≤ Config.outCap) :
    t.encodeNext x (.ok o) = .ok (o ++ t.tokens [x]) :=
  (if_neg hx).trans (if_neg (Nat.not_lt.2 hfit))

end EncodeNext

/-- What one more symbol can do to the encoder: leave it failed, fail it, or add the symbol's tokens. -/
theorem CodeTable.encodeNext_cases (t : CodeTable) (x : Sym) (r : Except TxnErr (List Byte)) :
    (∃ e, r = .error e ∧ t.encodeNext x r = .error e) ∨
      ∃ o, r = .ok o ∧
        (t.lenOf x = 0 ∧ t.encodeNext x r = .error .unknownSymbol ∨
          t.lenOf x ≠ 0 ∧ Config.outCap < o.length + (t.lenOf x).toNat ∧ t.encodeNext x r = .error .outputOverflow ∨
          t.lenOf x ≠ 0 ∧ o.length + (t.lenOf x).toNat ≤ Config.outCap ∧
            t.encodeNext x r = .ok (o ++ t.tokens [x])) := by
  cases r with
  | error e => exact .inl ⟨e, rfl, rfl⟩
  | ok o =>
    refine .inr ⟨o, rfl, ?_⟩
    by_cases hx : t.lenOf x = 0
    · exact .inl ⟨hx, CodeTable.encodeNext_of_unknown hx⟩
    by_cases hfull : Config.outCap < o.length + (t.lenOf x).toNat
    · exact .inr (.inl ⟨hx, hfull, CodeTable.encodeNext_of_full hx hfull⟩)
    · have hfit := Nat.le_of_not_lt hfull
      exact .inr (.inr ⟨hx, hfit, CodeTable.encodeNext_of_fits hx hfit⟩)

/-- One more symbol is encoded exactly when it has a codeword and the tokens still fit. -/
theorem CodeTable.encodeNext_eq_ok_iff (t : CodeTable) (x : Sym) (r : Except TxnErr (List Byte)) (out : List Byte) :
    t.encodeNext x r = .ok out ↔ ∃ o, r = .ok o ∧ t.lenOf x ≠ 0 ∧
      o.length + (t.lenOf x).toNat ≤ Config.outCap ∧ out = o ++ t.tokens [x] := by
  constructor
  · intro h
    rcases t.encodeNext_cases x r with ⟨e, -, he⟩ | ⟨o, hr, ⟨-, he⟩ | ⟨-, -, he⟩ | ⟨hx, hfit, he⟩⟩
    · cases h.symm.trans he
    · cases h.symm.trans he
    · cases h.symm.trans he
    · cases h.symm.trans he
      exact ⟨o, hr, hx, hfit, rfl⟩
  · rintro ⟨o, rfl, hx, hfit, rfl⟩
    exact CodeTable.encodeNext_of_fits hx hfit

/-- The encoder answers the tokens of the whole input exactly when every symbol has a codeword and they fit (R157). -/
theorem CodeTable.encodeInput_eq_ok_iff (t : CodeTable) (xs : List Sym) (out : List Byte) :
    t.encodeInput xs = .ok out ↔
      ((∀ x ∈ xs, t.lenOf x ≠ 0) ∧ (t.tokens xs).length ≤ Config.outCap) ∧ out = t.tokens xs := by
  induction xs using List.reverseRecOn generalizing out with
  | nil => simp [CodeTable.encodeInput, CodeTable.tokens, eq_comm]
  | append_singleton xs x ih =>
    simp only [CodeTable.encodeInput_concat, CodeTable.encodeNext_eq_ok_iff, ih, CodeTable.tokens_append,
      List.length_append, CodeTable.length_tokens_singleton, List.forall_mem_append, List.forall_mem_singleton]
    constructor
    · rintro ⟨_, ⟨⟨hxs, -⟩, rfl⟩, hx, hfit, rfl⟩
      exact ⟨⟨⟨hxs, hx⟩, hfit⟩, rfl⟩
    · rintro ⟨⟨⟨hxs, hx⟩, hfit⟩, rfl⟩
      exact ⟨_, ⟨⟨hxs, by omega⟩, rfl⟩, hx, hfit, rfl⟩

/-- The encoder fails with an error, never with NONE. -/
theorem CodeTable.encodeInput_ne_error_none (t : CodeTable) (xs : List Sym) : t.encodeInput xs ≠ .error .none := by
  induction xs using List.reverseRecOn with
  | nil => simp [CodeTable.encodeInput]
  | append_singleton xs x ih =>
    intro h
    rw [CodeTable.encodeInput_concat] at h
    rcases t.encodeNext_cases x (t.encodeInput xs) with ⟨e, hr, he⟩ | ⟨o, -, ⟨-, he⟩ | ⟨-, -, he⟩ | ⟨-, -, he⟩⟩
    · exact ih (hr.trans (he.symm.trans h))
    · cases h.symm.trans he
    · cases h.symm.trans he
    · cases h.symm.trans he

/-! ### The machine runs that encoder (R150, R156) -/

/-- The output of the open transaction: the bytes of OUTBUF below WORK_LEN (R37). -/
def State.written (s : State) : List Byte :=
  (List.range s.workLen.toNat).map s.outbuf.read

theorem State.length_written (s : State) : s.written.length = s.workLen.toNat := by
  simp [State.written]

/-- Appending a codeword that fits adds its tokens to the output (R154). -/
theorem written_withCode {s : State} (hwf : s.outbuf.wf = true) {x : Sym}
    (hfit : s.workLen.toNat + (s.ct.lenOf x).toNat ≤ Config.outCap) :
    (s.withCode x).written = s.written ++ s.ct.tokens [x] := by
  rw [State.written, withCode_workLen_toNat x hfit, List.range_add, List.map_append, List.map_map,
    CodeTable.tokens_singleton]
  refine congrArg₂ (· ++ ·) (List.map_congr_left fun a ha => ?_) (List.map_congr_left fun i hi => ?_)
  · exact withCode_read_of_outside x hwf (.inl (List.mem_range.1 ha))
  · exact withCode_read_of_inside x hwf (List.mem_range.1 hi)

/-- The open transaction has come to `r`: this output and no data error, or this data error. -/
def State.hasReached (s : State) : Except TxnErr (List Byte) → Prop
  | .ok out => s.txnErr = .none ∧ s.written = out
  | .error e => s.txnErr = e

/-- An encode transaction with code table `ct` is open and has taken the symbols `xs`. -/
structure State.Encoding (ct : CodeTable) (xs : List Sym) (s : State) : Prop where
  phase : s.phase = .enc
  table : s.ct = ct
  wf : s.outbuf.wf = true
  reached : s.hasReached (ct.encodeInput xs)

theorem State.Encoding.of_encBegin {s : State} (hwf : s.outbuf.wf = true) :
    State.Encoding s.ct [] { s.accepted.beginTxn with phase := .enc } :=
  ⟨rfl, rfl, hwf, rfl, rfl⟩

section Encoding

variable {ct : CodeTable} {xs : List Sym} {s : State} (h : s.Encoding ct xs)
include h

theorem State.Encoding.failed {e : TxnErr} (hrun : ct.encodeInput xs = .error e) : s.txnErr = e ∧ s.txnErr ≠ .none := by
  have he : s.txnErr = e := by have := h.reached; rwa [hrun] at this
  exact ⟨he, fun hn => ct.encodeInput_ne_error_none xs (hrun.trans (congrArg _ (he.symm.trans hn)))⟩

theorem State.Encoding.succeeded {out : List Byte} (hrun : ct.encodeInput xs = .ok out) :
    s.txnErr = .none ∧ s.written = out := by
  have := h.reached
  rwa [hrun] at this

/-- ENC_SYM x takes the transaction where the encoder goes with x. -/
theorem State.Encoding.encSym (x : Sym) : ∃ t, exec (.encSym x) s = .next t ∧ t.Encoding ct (xs ++ [x]) := by
  obtain rfl := h.table
  have hp := h.phase
  have hwf := h.wf
  have hcat := s.ct.encodeInput_concat xs x
  rcases s.ct.encodeNext_cases x (s.ct.encodeInput xs) with ⟨e, hr, hnext⟩ | ⟨o, hr, hnext⟩
  · obtain ⟨rfl, he⟩ := h.failed hr
    exact ⟨_, exec_encSym_of_failed hp he x, hp, rfl, hwf, hcat.trans hnext ▸ rfl⟩
  · obtain ⟨he, rfl⟩ := h.succeeded hr
    rw [State.length_written] at hnext
    rcases hnext with ⟨hx, hnext⟩ | ⟨hx, hfull, hnext⟩ | ⟨hx, hfit, hnext⟩
    · exact ⟨_, exec_encSym_of_unknown hp he hx, hp, rfl, hwf, hcat.trans hnext ▸ rfl⟩
    · exact ⟨_, exec_encSym_of_full hp he hx hfull, hp, rfl, hwf, hcat.trans hnext ▸ rfl⟩
    · exact ⟨_, exec_encSym_of_fits hp he hx hfit, hp, rfl, Memory.wf_shiftOut hwf _ _ _,
        hcat.trans hnext ▸ ⟨he, written_withCode (s := s.accepted) hwf hfit⟩⟩

end Encoding

theorem execAll_append_of_next {is js : List Instr} {s t : State} (h : execAll is s = .next t) :
    execAll (is ++ js) s = execAll js t := by
  induction is generalizing s with
  | nil => cases h; rfl
  | cons i is ih =>
    obtain ⟨u, hu⟩ := exec_next i s
    rw [execAll_cons_of_next hu] at h
    rw [List.cons_append, execAll_cons_of_next hu, ih h]

/-- The ENC_SYMs of an input take the transaction through the input. -/
theorem State.Encoding.encSyms {ct : CodeTable} {s : State} (h : s.Encoding ct []) (xs : List Sym) :
    ∃ t, execAll (xs.map .encSym) s = .next t ∧ t.Encoding ct xs := by
  induction xs using List.reverseRecOn with
  | nil => exact ⟨s, rfl, h⟩
  | append_singleton xs x ih =>
    obtain ⟨t, ht, hxs⟩ := ih
    obtain ⟨u, hu, hx⟩ := hxs.encSym x
    exact ⟨u, by rw [List.map_append, execAll_append_of_next ht]; exact execAll_cons_of_next hu, hx⟩

/-- What the registers hold once an outcome is committed (R156). -/
def State.hasCommitted (s : State) : Except TxnErr (List Byte) → Prop
  | .ok out => s.resOk = true ∧ s.txnErr = .none ∧ s.committed = out
  | .error e => s.resOk = false ∧ s.txnErr = e ∧ s.outLen = 0

/-- ENC_END commits what the transaction has come to (R155). -/
theorem State.Encoding.encEnd {ct : CodeTable} {xs : List Sym} {s : State} (h : s.Encoding ct xs) :
    ∃ t, exec .encEnd s = .next t ∧ t.phase = .ready ∧ t.hasCommitted (ct.encodeInput xs) := by
  refine ⟨_, exec_encEnd_of_enc h.phase, rfl, ?_⟩
  cases hrun : ct.encodeInput xs with
  | error e =>
    obtain ⟨rfl, he⟩ := h.failed hrun
    rw [State.commit_of_failed (s := s.accepted) he]
    exact ⟨rfl, rfl, rfl⟩
  | ok out =>
    obtain ⟨he, hout⟩ := h.succeeded hrun
    rw [State.commit_of_ok (s := s.accepted) he]
    exact ⟨rfl, he, hout⟩

/-- An encode transaction commits what the encoder answers for the block's code table (R150, R157). -/
theorem encodeTxn_hasCommitted {s : State} (hp : s.phase = .ready) (hwf : s.outbuf.wf = true) (xs : List Sym) :
    ∃ t, execAll (encodeTxn xs) s = .next t ∧ t.phase = .ready ∧ t.hasCommitted (s.ct.encodeInput xs) := by
  obtain ⟨u, hu, hxs⟩ := (State.Encoding.of_encBegin hwf).encSyms xs
  obtain ⟨t, ht, hend⟩ := hxs.encEnd
  refine ⟨t, ?_, hend⟩
  rw [encodeTxn, List.cons_append, execAll_cons_of_next (exec_encBegin_of_ready hp), execAll_append_of_next hu]
  exact execAll_cons_of_next ht

theorem committed_of_outLen_eq_zero {s : State} (h : s.outLen = 0) : s.committed = [] := by
  rw [State.committed, h]; rfl

/-- Settles O43: the transaction commits what the encoder answers (`encodeTxn_hasCommitted`), and the encoder answers the
input's tokens or fails (`CodeTable.encodeInput_eq_ok_iff`). -/
theorem encodeIsAllOrNothing : Obligations.EncodeIsAllOrNothing := by
  intro s xs hp hwf
  obtain ⟨t, ht, hready, hc⟩ := encodeTxn_hasCommitted hp hwf xs
  refine ⟨t, ht, hready, ?_⟩
  cases hrun : s.ct.encodeInput xs with
  | ok out =>
    rw [hrun] at hc
    obtain ⟨hok, he, rfl⟩ := hc
    obtain ⟨hall, hout⟩ := (s.ct.encodeInput_eq_ok_iff xs _).1 hrun
    exact ⟨iff_of_true hok hall, fun _ => ⟨hout, he⟩, fun hn => absurd (hok.symm.trans hn) (by decide)⟩
  | error e =>
    rw [hrun] at hc
    obtain ⟨hok, -, ho⟩ := hc
    have hfail : ¬ ((∀ x ∈ xs, s.ct.lenOf x ≠ 0) ∧ (s.ct.tokens xs).length ≤ Config.outCap) := fun hall => by
      cases hrun.symm.trans ((s.ct.encodeInput_eq_ok_iff xs _).2 ⟨hall, rfl⟩)
    have hno (hn : t.resOk = true) : False := absurd (hok.symm.trans hn) (by decide)
    exact ⟨iff_of_false hno hfail, fun hn => (hno hn).elim, fun _ => ⟨ho, committed_of_outLen_eq_zero ho⟩⟩

theorem State.length_committed (s : State) : s.committed.length = s.outLen.toNat := by
  simp [State.committed]

/-- The same outcome committed leaves the same result registers and bytes. -/
theorem State.hasCommitted.result_eq {t v : State} {r : Except TxnErr (List Byte)} (ht : t.hasCommitted r)
    (hv : v.hasCommitted r) :
    t.outLen = v.outLen ∧ t.committed = v.committed ∧ t.resOk = v.resOk ∧ t.txnErr = v.txnErr := by
  cases r with
  | ok out =>
    obtain ⟨htok, hte, htc⟩ := ht
    obtain ⟨hvok, hve, hvc⟩ := hv
    have hc : t.committed = v.committed := htc.trans hvc.symm
    have hlen : t.outLen.toNat = v.outLen.toNat := by rw [← State.length_committed, hc, State.length_committed]
    exact ⟨BitVec.eq_of_toNat_eq hlen, hc, htok.trans hvok.symm, hte.trans hve.symm⟩
  | error e =>
    obtain ⟨htok, hte, hto⟩ := ht
    obtain ⟨hvok, hve, hvo⟩ := hv
    exact ⟨hto.trans hvo.symm, (committed_of_outLen_eq_zero hto).trans (committed_of_outLen_eq_zero hvo).symm,
      htok.trans hvok.symm, hte.trans hve.symm⟩

/-- Settles O44: both transactions commit what the encoder answers for the one code table. -/
theorem encodeDependsOnTheCodeTableOnly : Obligations.EncodeDependsOnTheCodeTableOnly := by
  intro s u t v xs hs hu hct hswf huwf ht hv
  obtain ⟨t', ht', -, hct'⟩ := encodeTxn_hasCommitted hs hswf xs
  obtain ⟨v', hv', -, hcv'⟩ := encodeTxn_hasCommitted hu huwf xs
  cases ht.symm.trans ht'
  cases hv.symm.trans hv'
  exact hct'.result_eq (hct ▸ hcv')

end Sys2Proof.Machine

/-! ## The decode transaction (R170 to R177) -/

namespace Sys2Proof.Machine

/-! ### The tree that the decoder reads (R41, R176) -/

/-- A well-formed arena with at least one symbol holds a tree. -/
theorem State.TreeWf.isTree {s : State} (h : s.TreeWf) (hn : 1 ≤ s.nsym.toNat) :
    s.tb.IsTree s.nsym.toNat s.root := by
  have hchild (k : NodeIdx) (c : Bool) (hk : s.nsym.toNat ≤ k.toNat) (hk' : k.toNat < 2 * s.nsym.toNat - 1) :
      (s.tb.child k c).toNat < k.toNat := by
    obtain ⟨-, hleft, hright, -⟩ := h.internal k hk hk'
    cases c with
    | false => exact hleft
    | true => exact hright
  constructor
  case n_pos => exact hn
  case n_le => exact h.nsym_le
  case root_eq => exact h.root
  case leaf => exact fun k hk => (h.leaf k hk).1
  case internal => exact fun k hk hk' => (h.internal k hk hk').1
  case child_lt => exact hchild
  case exists_parent =>
    intro k hk
    obtain ⟨⟨p, c⟩, hp, -⟩ := h.one_parent k (by omega)
    exact ⟨p, c, hp⟩
  case one_parent =>
    intro p q c d hp hp' hq hq' hpq
    have hlt := hchild p c hp hp'
    have heq : (p, c) = (q, d) :=
      (h.one_parent (s.tb.child p c) (by omega)).unique ⟨hp, hp', rfl⟩ ⟨hq, hq', hpq.symm⟩
    exact Prod.mk.inj heq

/-- With two or more symbols the root is an internal node. -/
theorem State.TreeWf.root_internal {s : State} (h : s.TreeWf) (hn : 2 ≤ s.nsym.toNat) :
    s.nsym.toNat ≤ s.root.toNat ∧ s.root.toNat < 2 * s.nsym.toNat - 1 := by
  have := h.root
  omega

/-- An internal child of a node of the tree is a node of the tree. -/
theorem State.TreeWf.child_internal {s : State} (h : s.TreeWf) {k : NodeIdx} (hk : s.nsym.toNat ≤ k.toNat)
    (hk' : k.toNat < 2 * s.nsym.toNat - 1) {c : Bool} (hc : (s.tb.nodeAt (s.tb.child k c)).isLeaf = false) :
    s.nsym.toNat ≤ (s.tb.child k c).toNat ∧ (s.tb.child k c).toNat < 2 * s.nsym.toNat - 1 := by
  have T := h.isTree (by omega)
  have hlt := T.child_lt k c hk hk'
  exact ⟨T.le_of_internal hc, by omega⟩

/-! ### CURSOR stays on an internal node (R176) -/

/-- A bit token moves CURSOR to an internal child, or puts it back to ROOT. -/
theorem State.cursorInv.decBit {s : State} (ht : s.TreeWf) (h : s.cursorInv) (t : Byte) :
    (effect (.decBit t) s).cursorInv := by
  rcases transact_cases (State.takeToken t) s with ⟨-, he⟩ | ⟨hn, u, hu, he⟩ | ⟨hn, e, -, he⟩
  · rw [effect, he]; exact h
  · rw [effect, he]
    intro hp h2 _
    rcases State.takeToken_ok hu with ⟨v, c, -, rfl, ⟨-, h1⟩ | ⟨rfl, -⟩⟩ | ⟨b, -, -, hint, rfl⟩
    · exact absurd (h1 ▸ h2) (by decide)
    · exact ht.root_internal h2
    · obtain ⟨hc, hc'⟩ := h hp h2 hn
      exact ht.child_internal hc hc' hint
  · rw [effect, he]
    exact fun hp h2 _ => h hp h2 hn

/-- Of the commands that lead to DEC, DEC_BEGIN puts CURSOR on ROOT and DEC_BIT moves it within the tree. -/
theorem State.cursorInv.effect {i : Instr} {s : State} (hl : legalPhase i s.phase = true) (ht : s.treeInv)
    (h : s.cursorInv) : (effect i s).cursorInv := by
  intro hp
  have hafter : phaseAfter i = .dec := (effect_phase hl).symm.trans hp
  cases i with
  | decBegin =>
    have hready : s.phase = .ready := by simpa [legalPhase] using hl
    exact fun h2 _ => (ht (by rw [hready]; decide)).root_internal h2
  | decBit t => exact h.decBit (ht (ne_train_of_legal hl rfl)) t hp
  | clear | trainSym _ | build | getCode _ | encBegin | encSym _ | encEnd | decEnd => cases hafter

/-- Settles O58: every effect keeps CURSOR within the tree (`State.cursorInv.effect`). -/
theorem stepKeepsTheCursorInternal : Obligations.StepKeepsTheCursorInternal := by
  intro s t ht hs h
  rcases step_effect_cases h with ⟨_, _, _, _, _, _, rfl⟩ | ⟨a, rest, -, rfl⟩ | ⟨w, old, i, -, -, hl, rfl⟩
  · exact hs
  · intro hp; cases hp
  · exact State.cursorInv.effect (s := s.release.accepted) hl (ht.of_sameRegs s.sameRegs_release_accepted) hs

/-! ### DEC_BIT, one equation per outcome (R172 to R174, R207, R208) -/

theorem encode_decBit (t : Byte) : encode (.decBit t) = 0x09000000 ||| t.zeroExtend 32 :=
  word_eq_or 0x09 t

/-- The state after a symbol was emitted (R174). -/
def State.emitted (v : Sym) (s : State) : State :=
  { s with outbuf := s.outbuf.write s.workLen.toNat v, workLen := s.workLen + 1 }

section DecBit

variable {s : State} (hp : s.phase = .dec)
include hp

theorem exec_decBit_of_dec (t : Byte) : exec (.decBit t) s = .next (transact (State.takeToken t) s.accepted) :=
  exec_of_legal (beq_iff_eq.2 hp)

theorem exec_decBit_of_failed (he : s.txnErr ≠ .none) (t : Byte) : exec (.decBit t) s = .next s.accepted := by
  rw [exec_decBit_of_dec hp, transact_of_failed (s := s.accepted) he]

variable (he : s.txnErr = .none)
include he

theorem exec_decBit_of_ok {t : Byte} {u : State} (h : s.accepted.takeToken t = .ok u) :
    exec (.decBit t) s = .next u := by
  rw [exec_decBit_of_dec hp, transact_of_ok (s := s.accepted) he h]

theorem exec_decBit_of_error {t : Byte} {e : TxnErr} (h : s.accepted.takeToken t = .error e) :
    exec (.decBit t) s = .next (s.accepted.raiseTxnError e) := by
  rw [exec_decBit_of_dec hp, transact_of_error (s := s.accepted) he h]

end DecBit

theorem tokenBit_eq_none {t : Byte} (h0 : t ≠ 0x30) (h1 : t ≠ 0x31) : tokenBit t = none := by
  rw [tokenBit, if_neg h0, if_neg h1]

theorem tokenBit_bitToken (b : Bool) : tokenBit (bitToken b) = some b := by
  rw [bitToken_eq, tokenBit_token]

/-- Settles O45: one equation of `takeToken` per check, in the order of R172. -/
theorem decBitChecksInOrder : Obligations.DecBitChecksInOrder := by
  refine fun t => ⟨fun w => ?_, fun s => ⟨fun hp he => exec_decBit_of_failed hp he t, fun hp he h0 => ?_,
    fun hp he h0 ht0 ht1 => ?_, fun b hp he h0 ht => ?_, fun hp => ?_⟩⟩
  · rw [decode_eq_ok_iff, encode_decBit, eq_comm]
  · exact exec_decBit_of_error hp he (State.takeToken_of_empty (s := s.accepted) h0 t)
  · exact exec_decBit_of_error hp he (State.takeToken_of_invalid (s := s.accepted) h0 (tokenBit_eq_none ht0 ht1))
  · have hbit : tokenBit t = some b := by rw [ht, tokenBit_token]
    have hstep : s.accepted.takeToken t =
        if s.nsym = 1 then s.accepted.singleSymbolStep b else s.accepted.treeStep b := by
      split
      · next h1 => exact State.takeToken_of_single h1 hbit
      · next h1 => exact State.takeToken_of_tree h0 h1 hbit
    rw [exec_decBit_of_dec hp, transact, if_neg (not_not.2 (show s.accepted.txnErr = .none from he)), hstep]
    rfl
  · exact exec_of_illegal (beq_eq_false_iff_ne.2 hp)

/-! ### What emitting a symbol leaves in OUTBUF (R174) -/

section Emitted

variable {s : State} (v : Sym) (hw : s.workLen.toNat < Config.outCap) (hwf : s.outbuf.wf = true)

include hw in
theorem emitted_workLen_toNat : (s.emitted v).workLen.toNat = s.workLen.toNat + 1 :=
  workLen_add_toNat (l := 1) hw

include hwf in
theorem emitted_read_self : (s.emitted v).outbuf.read s.workLen.toNat = v :=
  Memory.read_write_self hwf _ _

include hwf in
theorem emitted_read_of_ne {a : Nat} (ha : a ≠ s.workLen.toNat) : (s.emitted v).outbuf.read a = s.outbuf.read a :=
  Memory.read_write_of_ne hwf ha _

include hw hwf in
theorem written_emitted : (s.emitted v).written = s.written ++ [v] := by
  rw [State.written, emitted_workLen_toNat v hw, List.range_succ, List.map_append, List.map_singleton,
    emitted_read_self v hwf]
  refine congrArg (· ++ [v]) (List.map_congr_left fun a ha => ?_)
  exact emitted_read_of_ne v hwf (Nat.ne_of_lt (List.mem_range.1 ha))

end Emitted

/-! ### The step of a single-symbol model (R173) -/

section Single

variable {s : State} (hp : s.phase = .dec) (he : s.txnErr = .none) (h1 : s.nsym = 1)
include hp he h1

theorem exec_decBit_one_of_single :
    exec (.decBit 0x31) s = .next (s.accepted.raiseTxnError .invalidBitToken) :=
  exec_decBit_of_error hp he (State.takeToken_of_single (s := s.accepted) (b := true) h1 rfl)

theorem exec_decBit_zero_of_single (hw : s.workLen.toNat < Config.outCap) :
    exec (.decBit 0x30) s = .next (s.accepted.emitted (s.tb.nodeAt s.root).sym) :=
  exec_decBit_of_ok hp he
    ((State.takeToken_of_single (s := s.accepted) (b := false) h1 rfl).trans (State.emit_of_lt (s := s.accepted) hw))

theorem exec_decBit_zero_of_single_full (hw : Config.outCap ≤ s.workLen.toNat) :
    exec (.decBit 0x30) s = .next (s.accepted.raiseTxnError .outputOverflow) :=
  exec_decBit_of_error hp he
    ((State.takeToken_of_single (s := s.accepted) (b := false) h1 rfl).trans (State.emit_of_full (s := s.accepted) hw))

end Single

/-- Settles O46: one equation of DEC_BIT per outcome, and the bytes by `emitted_read_self` and `emitted_read_of_ne`. -/
theorem singleSymbolModelDecodesZeros : Obligations.SingleSymbolModelDecodesZeros := by
  refine fun s hp he h1 => ⟨exec_decBit_one_of_single hp he h1,
    fun hw => exec_decBit_zero_of_single_full hp he h1 (Nat.le_of_eq hw.symm), fun hw hwf => ?_⟩
  exact ⟨_, exec_decBit_zero_of_single hp he h1 hw, rfl, emitted_workLen_toNat (s := s.accepted) _ hw,
    emitted_read_self (s := s.accepted) _ hwf, fun a ha => emitted_read_of_ne (s := s.accepted) _ hwf ha⟩

/-! ### The step in the tree (R174) -/

section Tree

variable {s : State} (hp : s.phase = .dec) (he : s.txnErr = .none) (h2 : 2 ≤ s.nsym) {b : Bool}

include h2 in
theorem takeToken_bitToken_of_tree : s.takeToken (bitToken b) = s.treeStep b := by
  have h0 : s.nsym ≠ 0 := fun h => absurd (h ▸ h2) (by decide)
  have h1 : s.nsym ≠ 1 := fun h => absurd (h ▸ h2) (by decide)
  exact State.takeToken_of_tree h0 h1 (tokenBit_bitToken b)

include hp he h2

theorem exec_bit_of_internal (hint : (s.tb.nodeAt (s.tb.child s.cursor b)).isLeaf = false) :
    exec (.decBit (bitToken b)) s = .next { s.accepted with cursor := s.tb.child s.cursor b } :=
  exec_decBit_of_ok hp he
    ((takeToken_bitToken_of_tree (s := s.accepted) h2).trans (State.treeStep_of_internal hint))

theorem exec_bit_of_leaf (hleaf : (s.tb.nodeAt (s.tb.child s.cursor b)).isLeaf = true)
    (hw : s.workLen.toNat < Config.outCap) :
    exec (.decBit (bitToken b)) s =
      .next { s.accepted.emitted (s.tb.nodeAt (s.tb.child s.cursor b)).sym with cursor := s.root } :=
  exec_decBit_of_ok hp he
    ((takeToken_bitToken_of_tree (s := s.accepted) h2).trans (State.treeStep_of_leaf hleaf hw))

theorem exec_bit_of_full (hleaf : (s.tb.nodeAt (s.tb.child s.cursor b)).isLeaf = true)
    (hw : Config.outCap ≤ s.workLen.toNat) :
    exec (.decBit (bitToken b)) s = .next (s.accepted.raiseTxnError .outputOverflow) :=
  exec_decBit_of_error hp he
    ((takeToken_bitToken_of_tree (s := s.accepted) h2).trans (State.treeStep_of_full hleaf hw))

end Tree

/-- Settles O47: one equation of DEC_BIT per outcome, and the bytes by `emitted_read_self` and `emitted_read_of_ne`. -/
theorem treeStepMovesOrEmits : Obligations.TreeStepMovesOrEmits := by
  intro s b c hp he h2 hc
  obtain rfl : c = s.tb.child s.cursor b := hc
  rw [← bitToken_eq]
  refine ⟨fun hint => exec_bit_of_internal hp he h2 hint,
    fun hleaf hw => exec_bit_of_full hp he h2 hleaf (Nat.le_of_eq hw.symm), fun hleaf hw hwf => ?_⟩
  exact ⟨_, exec_bit_of_leaf hp he h2 hleaf hw, rfl,
    emitted_workLen_toNat (s := s.accepted) (s.tb.nodeAt (s.tb.child s.cursor b)).sym hw,
    emitted_read_self (s := s.accepted) _ hwf, fun a ha => emitted_read_of_ne (s := s.accepted) _ hwf ha⟩

/-! ### DEC_BEGIN and DEC_END (R171, R175) -/

/-- The state in which a decode transaction starts (R171). -/
def State.decOpened (s : State) : State :=
  { s.accepted.beginTxn with cursor := s.root, phase := .dec }

theorem exec_decBegin_of_ready {s : State} (hp : s.phase = .ready) : exec .decBegin s = .next s.decOpened :=
  exec_of_legal (beq_iff_eq.2 hp)

section DecEnd

variable {s : State} (hp : s.phase = .dec)
include hp

theorem exec_decEnd_of_dec :
    exec .decEnd s = .next { s.accepted.checkTruncated.commit with phase := .ready } :=
  exec_of_legal (beq_iff_eq.2 hp)

theorem exec_decEnd_of_failed (he : s.txnErr ≠ .none) :
    exec .decEnd s = .next { s.accepted with outLen := 0, resOk := false, phase := .ready } := by
  rw [exec_decEnd_of_dec hp, State.checkTruncated_of_failed (s := s.accepted) he,
    State.commit_of_failed (s := s.accepted) he]

variable (he : s.txnErr = .none)
include he

theorem exec_decEnd_of_inside (h2 : 2 ≤ s.nsym) (hc : s.cursor ≠ s.root) :
    exec .decEnd s = .next { s.accepted with
      txnErr := .truncatedStream, outLen := 0, resOk := false, phase := .ready } := by
  rw [exec_decEnd_of_dec hp, State.checkTruncated_of_inside (s := s.accepted) he h2 hc,
    State.commit_of_failed (s := s.accepted.raiseTxnError .truncatedStream) (by simp)]
  rfl

theorem exec_decEnd_of_boundary (hb : ¬ (2 ≤ s.nsym ∧ s.cursor ≠ s.root)) :
    exec .decEnd s = .next { s.accepted with outLen := s.workLen, resOk := true, phase := .ready } := by
  rw [exec_decEnd_of_dec hp, State.checkTruncated_of_boundary (s := s.accepted) hb,
    State.commit_of_ok (s := s.accepted) he]
  rfl

end DecEnd

/-- Settles O48: one equation of DEC_END per outcome. -/
theorem decEndChecksAndCommits : Obligations.DecEndChecksAndCommits := by
  refine ⟨fun w => decode_eq_ok_iff.trans eq_comm, fun s => ⟨fun hp he => exec_decEnd_of_failed hp he,
    fun hp he h2 hc => exec_decEnd_of_inside hp he h2 hc, fun hp he hb => ?_, fun hp => ?_⟩⟩
  · refine exec_decEnd_of_boundary hp he ?_
    rintro ⟨h2, hc⟩
    rcases hb with hlt | heq
    · exact BitVec.not_lt.2 h2 hlt
    · exact hc heq
  · exact exec_of_illegal (beq_eq_false_iff_ne.2 hp)

/-! ### Codewords are the paths to the leaves (R130, R136) -/

/-- The bits lead from ROOT to the leaf of `x`. -/
def State.leafPath (s : State) (p : List Bool) (x : Sym) : Prop :=
  ∃ k, s.tb.follow p s.root = some k ∧ (s.tb.nodeAt k).isLeaf = true ∧ (s.tb.nodeAt k).sym = x

/-- Two leaves of the tree with one symbol are the same node (R121). -/
theorem State.TreeWf.leaf_injective {s : State} (h : s.TreeWf) {j k : NodeIdx} (hj : j.toNat < s.nsym.toNat)
    (hk : k.toNat < s.nsym.toNat) (hsym : (s.tb.nodeAt j).sym = (s.tb.nodeAt k).sym) : j = k := by
  rcases Nat.lt_trichotomy j.toNat k.toNat with hlt | heq | hlt
  · exact absurd (hsym ▸ h.leaf_order j k hlt hk) (BitVec.lt_irrefl _)
  · exact BitVec.eq_of_toNat_eq heq
  · exact absurd (hsym ▸ h.leaf_order k j hlt hj) (BitVec.lt_irrefl _)

section Model

variable {m : State} (ht : m.TreeWf) (hc : m.CodesWf) (h2 : 2 ≤ m.nsym)
include ht hc h2

theorem State.leafPath_codeword {x : Sym} (hx : m.freqOf x ≠ 0) : m.leafPath (m.ct.codeword x) x := by
  obtain ⟨k, hk, hsym, hpath⟩ := hc.path h2 x hx
  exact ⟨k, hpath, (ht.leaf k hk).1, hsym⟩

/-- No other bits than a present symbol's codeword lead to its leaf. -/
theorem State.leafPath_iff {p : List Bool} {x : Sym} :
    m.leafPath p x ↔ m.freqOf x ≠ 0 ∧ p = m.ct.codeword x := by
  constructor
  · rintro ⟨k, hp, hleaf, rfl⟩
    have hn : 2 ≤ m.nsym.toNat := h2
    have T := ht.isTree (by omega)
    have hk := T.lt_of_leaf (T.follow_lt T.root_lt hp) hleaf
    obtain ⟨-, hw, hpos⟩ := ht.leaf k hk
    have hx : m.freqOf (m.tb.nodeAt k).sym ≠ 0 := hw ▸ count_pos_iff.1 hpos
    obtain ⟨j, hj, hsym, hcode⟩ := hc.path h2 _ hx
    obtain rfl := ht.leaf_injective hj hk hsym
    exact ⟨hx, T.path_unique hp hcode⟩
  · rintro ⟨hx, rfl⟩
    exact State.leafPath_codeword ht hc h2 hx

end Model

/-! ### CURSOR over a stream of bits (R174, R176) -/

/-- Where a bit takes CURSOR: to the child it names, or back to ROOT when that is a leaf (R174). -/
def TreeBuilder.nextCursor (b : TreeBuilder) (root c : NodeIdx) (bit : Bool) : NodeIdx :=
  if (b.nodeAt (b.child c bit)).isLeaf then root else b.child c bit

theorem TreeBuilder.nextCursor_of_leaf {b : TreeBuilder} {root c : NodeIdx} {bit : Bool}
    (h : (b.nodeAt (b.child c bit)).isLeaf = true) : b.nextCursor root c bit = root :=
  if_pos h

theorem TreeBuilder.nextCursor_of_internal {b : TreeBuilder} {root c : NodeIdx} {bit : Bool}
    (h : (b.nodeAt (b.child c bit)).isLeaf = false) : b.nextCursor root c bit = b.child c bit :=
  if_neg (Bool.eq_false_iff.1 h)

/-- Where the bits of a stream take CURSOR. -/
def TreeBuilder.cursorAfter (b : TreeBuilder) (root c : NodeIdx) (bits : List Bool) : NodeIdx :=
  bits.foldl (b.nextCursor root) c

theorem TreeBuilder.cursorAfter_append (b : TreeBuilder) (root c : NodeIdx) (p q : List Bool) :
    b.cursorAfter root c (p ++ q) = b.cursorAfter root (b.cursorAfter root c p) q :=
  List.foldl_append

/-- A path to a leaf takes CURSOR back to ROOT. -/
theorem TreeBuilder.cursorAfter_of_follow_leaf {b : TreeBuilder} {root c k : NodeIdx} {bit : Bool} {p : List Bool}
    (h : b.follow (bit :: p) c = some k) (hk : (b.nodeAt k).isLeaf = true) :
    b.cursorAfter root c (bit :: p) = root := by
  induction p generalizing c bit with
  | nil =>
    obtain ⟨-, hp⟩ := follow_cons_eq_some.1 h
    cases hp
    exact nextCursor_of_leaf hk
  | cons d p ih =>
    obtain ⟨-, hp⟩ := follow_cons_eq_some.1 h
    obtain ⟨hint, -⟩ := follow_cons_eq_some.1 hp
    rw [cursorAfter, List.foldl_cons, nextCursor_of_internal hint]
    exact ih hp

section Stream

variable {m : State} (ht : m.TreeWf) (hc : m.CodesWf) (h2 : 2 ≤ m.nsym)
include ht h2

/-- A path from ROOT to a leaf has a first step. -/
theorem State.leafPath.exists_cons {p : List Bool} {x : Sym} (h : m.leafPath p x) :
    ∃ bit q, p = bit :: q := by
  obtain ⟨k, hp, hleaf, -⟩ := h
  cases p with
  | cons bit q => exact ⟨bit, q, rfl⟩
  | nil =>
    cases hp
    obtain ⟨hn, hlt⟩ := ht.root_internal h2
    exact absurd (hleaf.symm.trans (ht.internal _ hn hlt).1) (by decide)

include hc

theorem State.cursorAfter_codewords {xs : List Sym} (hxs : ∀ x ∈ xs, m.freqOf x ≠ 0) :
    m.tb.cursorAfter m.root m.root (xs.flatMap m.ct.codeword) = m.root := by
  induction xs with
  | nil => rfl
  | cons x xs ih =>
    obtain ⟨hx, hxs⟩ := List.forall_mem_cons.1 hxs
    have hpath := State.leafPath_codeword ht hc h2 hx
    obtain ⟨bit, q, hcode⟩ := hpath.exists_cons ht h2
    obtain ⟨k, hk, hleaf, -⟩ := hpath
    rw [hcode] at hk
    rw [List.flatMap_cons, TreeBuilder.cursorAfter_append, hcode, TreeBuilder.cursorAfter_of_follow_leaf hk hleaf]
    exact ih hxs

/-- Any stream is whole codewords and then a path from ROOT to the internal node under CURSOR. -/
theorem State.exists_codewords_append_path (bits : List Bool) :
    ∃ (xs : List Sym) (p : List Bool), (∀ x ∈ xs, m.freqOf x ≠ 0) ∧ bits = xs.flatMap m.ct.codeword ++ p ∧
      m.tb.follow p m.root = some (m.tb.cursorAfter m.root m.root bits) ∧
      (m.tb.nodeAt (m.tb.cursorAfter m.root m.root bits)).isLeaf = false := by
  have hroot : (m.tb.nodeAt m.root).isLeaf = false := by
    obtain ⟨hn, hlt⟩ := ht.root_internal h2
    exact (ht.internal _ hn hlt).1
  induction bits using List.reverseRecOn with
  | nil => exact ⟨[], [], fun _ h => (nomatch h), rfl, rfl, hroot⟩
  | append_singleton bits bit ih =>
    obtain ⟨xs, p, hxs, hbits, hp, hint⟩ := ih
    have hnext : m.tb.cursorAfter m.root m.root (bits ++ [bit]) =
        m.tb.nextCursor m.root (m.tb.cursorAfter m.root m.root bits) bit :=
      TreeBuilder.cursorAfter_append ..
    generalize m.tb.cursorAfter m.root m.root bits = c at hp hint hnext
    have hstep : m.tb.follow (p ++ [bit]) m.root = some (m.tb.child c bit) :=
      TreeBuilder.follow_concat_eq_some.2 ⟨c, hp, hint, rfl⟩
    cases hleaf : (m.tb.nodeAt (m.tb.child c bit)).isLeaf with
    | false =>
      rw [hnext, TreeBuilder.nextCursor_of_internal hleaf]
      exact ⟨xs, p ++ [bit], hxs, by rw [hbits, List.append_assoc], hstep, hleaf⟩
    | true =>
      obtain ⟨hx, hcode⟩ := (State.leafPath_iff ht hc h2).1 ⟨_, hstep, hleaf, rfl⟩
      rw [hnext, TreeBuilder.nextCursor_of_leaf hleaf]
      refine ⟨xs ++ [_], [], List.forall_mem_append.2 ⟨hxs, fun y hy => List.mem_singleton.1 hy ▸ hx⟩, ?_, rfl, hroot⟩
      rw [List.flatMap_append, List.flatMap_singleton, List.append_nil, ← hcode, ← List.append_assoc, ← hbits]

/-- A stream takes CURSOR to ROOT exactly when it is whole codewords. -/
theorem State.cursorAfter_eq_root_iff (bits : List Bool) :
    m.tb.cursorAfter m.root m.root bits = m.root ↔
      ∃ xs : List Sym, (∀ x ∈ xs, m.freqOf x ≠ 0) ∧ bits = xs.flatMap m.ct.codeword := by
  constructor
  · intro hroot
    obtain ⟨xs, p, hxs, hbits, hp, -⟩ := State.exists_codewords_append_path ht hc h2 bits
    rw [hroot] at hp
    have hn : 2 ≤ m.nsym.toNat := h2
    have hnil : p = [] := (ht.isTree (by omega)).path_unique hp rfl
    exact ⟨xs, hxs, by rw [hbits, hnil, List.append_nil]⟩
  · rintro ⟨xs, hxs, rfl⟩
    exact State.cursorAfter_codewords ht hc h2 hxs

end Stream

/-! ### A stream of DEC_BITs (R170) -/

/-- The commands of a stream of bits. -/
def bitCommands (bits : List Bool) : List Instr :=
  (bits.map bitToken).map .decBit

/-- A token that leaves no data error met none, and took CURSOR where the tree says. -/
theorem exec_bit_without_error {s u : State} (hp : s.phase = .dec) (h2 : 2 ≤ s.nsym) {bit : Bool}
    (h : exec (.decBit (bitToken bit)) s = .next u) (hu : u.txnErr = .none) :
    s.txnErr = .none ∧ ∃ o k, u = { s.accepted with
      outbuf := o, workLen := k, cursor := s.tb.nextCursor s.root s.cursor bit } := by
  by_cases he : s.txnErr = .none
  · refine ⟨he, ?_⟩
    cases hleaf : (s.tb.nodeAt (s.tb.child s.cursor bit)).isLeaf with
    | false =>
      cases h.symm.trans (exec_bit_of_internal hp he h2 hleaf)
      exact ⟨_, _, by rw [TreeBuilder.nextCursor_of_internal hleaf]⟩
    | true =>
      rw [TreeBuilder.nextCursor_of_leaf hleaf]
      by_cases hw : s.workLen.toNat < Config.outCap
      · cases h.symm.trans (exec_bit_of_leaf hp he h2 hleaf hw)
        exact ⟨_, _, rfl⟩
      · cases h.symm.trans (exec_bit_of_full hp he h2 hleaf (Nat.le_of_not_lt hw))
        cases hu
  · cases h.symm.trans (exec_decBit_of_failed hp he _)
    exact absurd hu he

theorem exec_decBit_frame {s u : State} {t : Byte} (h : exec (.decBit t) s = .next u) :
    u.phase = s.phase ∧ u.nsym = s.nsym := by
  rcases exec_cases h with ⟨-, rfl⟩ | ⟨-, rfl⟩
  · obtain ⟨m, k, c, e, he, -⟩ := effect_decBit_frame t s.accepted
    rw [he]
    exact ⟨rfl, rfl⟩
  · exact ⟨rfl, rfl⟩

/-- A stream that leaves no data error took CURSOR where the tree says. -/
theorem execAll_bits_cursor {s t : State} (hp : s.phase = .dec) (h2 : 2 ≤ s.nsym) {bits : List Bool}
    (h : execAll (bitCommands bits) s = .next t) (he : t.txnErr = .none) :
    s.txnErr = .none ∧ t.root = s.root ∧ t.cursor = s.tb.cursorAfter s.root s.cursor bits := by
  induction bits generalizing s with
  | nil =>
    cases h
    exact ⟨he, rfl, rfl⟩
  | cons bit bits ih =>
    obtain ⟨u, hu⟩ := exec_next (.decBit (bitToken bit)) s
    have hrest : execAll (bitCommands bits) u = .next t := (execAll_cons_of_next hu).symm.trans h
    obtain ⟨hphase, hn⟩ := exec_decBit_frame hu
    obtain ⟨hue, hroot, hcur⟩ := ih (hphase.trans hp) (hn.symm ▸ h2) hrest
    obtain ⟨hse, o, k, rfl⟩ := exec_bit_without_error hp h2 hu hue
    exact ⟨hse, hroot, hcur⟩

/-- Settles O50: the tokens take CURSOR where the tree says (`execAll_bits_cursor`), which is ROOT exactly after whole codewords
(`State.cursorAfter_eq_root_iff`). -/
theorem cursorAtRootMeansWholeCodewords : Obligations.CursorAtRootMeansWholeCodewords := by
  intro s t bits hp ht hc h2 h he
  rw [execAll_cons_of_next (exec_decBegin_of_ready hp)] at h
  obtain ⟨-, hroot, hcur⟩ := execAll_bits_cursor (s := s.decOpened) rfl h2 h he
  rw [hcur, hroot]
  exact State.cursorAfter_eq_root_iff ht hc h2 bits

/-! ### Decoding what was encoded (R177) -/

/-- An error-free decode transaction over the model of `m` stands between two codewords, with output `out`. -/
structure State.Decoded (s m : State) (out : List Sym) : Prop where
  phase : s.phase = .dec
  txnErr : s.txnErr = .none
  tb : s.tb = m.tb
  nsym : s.nsym = m.nsym
  root : s.root = m.root
  wf : s.outbuf.wf = true
  written : s.written = out
  cursor : s.cursor = s.root

/-- One more emitted symbol, and CURSOR at ROOT. -/
theorem State.Decoded.emitted {m s : State} {out : List Sym} (h : s.Decoded m out) (hroom : out.length < Config.outCap)
    (x : Sym) : State.Decoded { s.accepted.emitted x with cursor := s.root } m (out ++ [x]) := by
  have hw : s.workLen.toNat < Config.outCap := by rwa [← s.length_written, h.written]
  have hwritten := written_emitted (s := s.accepted) x hw h.wf
  exact ⟨h.phase, h.txnErr, h.tb, h.nsym, h.root, Memory.wf_write h.wf _ _,
    hwritten.trans (congrArg (· ++ [x]) h.written), rfl⟩

/-- The bits of a path to a leaf emit the leaf's symbol. -/
theorem execAll_bits_of_follow_leaf {s : State} (hp : s.phase = .dec) (he : s.txnErr = .none) (h2 : 2 ≤ s.nsym)
    (hw : s.workLen.toNat < Config.outCap) {bit : Bool} {p : List Bool} {k : NodeIdx}
    (h : s.tb.follow (bit :: p) s.cursor = some k) (hk : (s.tb.nodeAt k).isLeaf = true) :
    execAll (bitCommands (bit :: p)) s =
      .next { s.accepted.emitted (s.tb.nodeAt k).sym with cursor := s.root } := by
  induction p generalizing s bit with
  | nil =>
    obtain ⟨-, hchild⟩ := TreeBuilder.follow_cons_eq_some.1 h
    cases hchild
    exact execAll_cons_of_next (exec_bit_of_leaf hp he h2 hk hw)
  | cons d p ih =>
    obtain ⟨-, hrest⟩ := TreeBuilder.follow_cons_eq_some.1 h
    obtain ⟨hint, -⟩ := TreeBuilder.follow_cons_eq_some.1 hrest
    exact (execAll_cons_of_next (exec_bit_of_internal hp he h2 hint)).trans
      (ih (s := { s.accepted with cursor := s.tb.child s.cursor bit }) hp he h2 hw hrest hk)

section RoundTrip

variable {m : State} (ht : m.TreeWf) (hc : m.CodesWf)

include ht in
/-- In a single-symbol model the symbol present is that of ROOT (R131). -/
theorem State.TreeWf.sym_root_of_single (h1 : m.nsym = 1) {x : Sym} (hx : m.freqOf x ≠ 0) :
    (m.tb.nodeAt m.root).sym = x := by
  obtain ⟨k, hk, rfl⟩ := ht.leaf_of_present x (count_pos_iff.2 hx)
  have hroot := ht.root
  have hn : m.nsym.toNat = 1 := congrArg BitVec.toNat h1
  have hkr : m.root = k := BitVec.eq_of_toNat_eq (by omega)
  rw [hkr]

include hc in
theorem State.CodesWf.codeword_of_single (h1 : m.nsym = 1) {x : Sym} (hx : m.freqOf x ≠ 0) :
    m.ct.codeword x = [false] := by
  obtain ⟨hlen, hbits⟩ := hc.single h1 x hx
  rw [CodeTable.codeword, hlen, hbits]
  rfl

include ht hc

/-- The codeword of a symbol present decodes to the symbol (R173, R174). -/
theorem State.Decoded.codeword {s : State} {out : List Sym} (h : s.Decoded m out) (hroom : out.length < Config.outCap)
    {x : Sym} (hx : m.freqOf x ≠ 0) :
    ∃ u, execAll (bitCommands (m.ct.codeword x)) s = .next u ∧ u.Decoded m (out ++ [x]) := by
  refine ⟨{ s.accepted.emitted x with cursor := s.root }, ?_, h.emitted hroom x⟩
  have hw : s.workLen.toNat < Config.outCap := by rwa [← s.length_written, h.written]
  rcases Nat.lt_trichotomy m.nsym.toNat 1 with hn | hn | hn
  · obtain ⟨k, hk, -⟩ := ht.leaf_of_present x (count_pos_iff.2 hx)
    omega
  · have h1 : m.nsym = 1 := BitVec.eq_of_toNat_eq hn
    have hsym : (s.tb.nodeAt s.root).sym = x := by rw [h.tb, h.root, ht.sym_root_of_single h1 hx]
    have hzero := exec_decBit_zero_of_single h.phase h.txnErr (h.nsym.trans h1) hw
    rw [hsym] at hzero
    rw [hc.codeword_of_single h1 hx, ← h.cursor]
    exact execAll_cons_of_next hzero
  · have h2 : 2 ≤ m.nsym := hn
    have hpath := State.leafPath_codeword ht hc h2 hx
    obtain ⟨bit, p, hcode⟩ := hpath.exists_cons ht h2
    obtain ⟨k, hk, hleaf, rfl⟩ := hpath
    rw [hcode, ← h.root, ← h.cursor, ← h.tb] at hk
    rw [hcode, ← h.tb]
    exact execAll_bits_of_follow_leaf h.phase h.txnErr (h.nsym ▸ h2) hw hk (h.tb ▸ hleaf)

/-- The codewords of an input decode to the input. -/
theorem State.Decoded.codewords {s : State} (h : s.Decoded m []) {xs : List Sym} (hxs : ∀ x ∈ xs, m.freqOf x ≠ 0)
    (hroom : xs.length ≤ Config.outCap) :
    ∃ u, execAll (bitCommands (xs.flatMap m.ct.codeword)) s = .next u ∧ u.Decoded m xs := by
  induction xs using List.reverseRecOn with
  | nil => exact ⟨s, rfl, h⟩
  | append_singleton xs x ih =>
    obtain ⟨hinit, hlast⟩ := List.forall_mem_append.1 hxs
    have hx : m.freqOf x ≠ 0 := hlast x (List.mem_singleton_self x)
    rw [List.length_append, List.length_singleton] at hroom
    obtain ⟨t, ht', hdec⟩ := ih hinit (by omega)
    obtain ⟨u, hu, hdec'⟩ := hdec.codeword ht hc (by omega) hx
    refine ⟨u, ?_, hdec'⟩
    rw [List.flatMap_append, List.flatMap_singleton, bitCommands, List.map_append, List.map_append]
    exact (execAll_append_of_next ht').trans hu

end RoundTrip

/-- DEC_BEGIN starts an error-free transaction with no output. -/
theorem State.Decoded.of_decBegin {m v : State} (htb : v.tb = m.tb) (hn : v.nsym = m.nsym) (hr : v.root = m.root)
    (hwf : v.outbuf.wf = true) : v.decOpened.Decoded m [] :=
  ⟨rfl, rfl, htb, hn, hr, hwf, rfl, rfl⟩

/-- DEC_END between two codewords commits the output (R175). -/
theorem State.Decoded.decEnd {m s : State} {out : List Sym} (h : s.Decoded m out) :
    ∃ u, exec .decEnd s = .next u ∧ u.resOk = true ∧ u.txnErr = .none ∧ u.committed = out :=
  ⟨_, exec_decEnd_of_boundary h.phase h.txnErr (fun hb => hb.2 h.cursor), rfl, h.txnErr, h.written⟩

/-- An input of symbols with codewords has at least one token per symbol (R177). -/
theorem CodeTable.length_le_length_tokens {t : CodeTable} {xs : List Sym} (h : ∀ x ∈ xs, t.lenOf x ≠ 0) :
    xs.length ≤ (t.tokens xs).length := by
  induction xs with
  | nil => exact Nat.zero_le _
  | cons x xs ih =>
    obtain ⟨hx, hxs⟩ := List.forall_mem_cons.1 h
    have hlen := toNat_ne_zero hx
    have hrest := ih hxs
    rw [← List.singleton_append, t.tokens_append, List.length_append, List.length_append,
      t.length_tokens_singleton, List.length_singleton]
    omega

/-- Settles O49: the encode transaction committed the codewords of its input (`encodeIsAllOrNothing`), and these decode to it
(`State.Decoded.codewords`). -/
theorem decodeInvertsEncode : Obligations.DecodeInvertsEncode := by
  intro s t v xs hs ht hc hwf henc hok hv htb hn hr hvwf
  obtain ⟨t', ht', -, hiff, hout, -⟩ := encodeIsAllOrNothing s xs hs hwf
  cases henc.symm.trans ht'
  obtain ⟨hcodes, hfit⟩ := hiff.1 hok
  have hpresent : ∀ x ∈ xs, s.freqOf x ≠ 0 := fun x hx h0 => hcodes x hx ((hc.present x).2 h0)
  obtain ⟨w, hw, hdec⟩ := (State.Decoded.of_decBegin htb hn hr hvwf).codewords ht hc hpresent
    ((CodeTable.length_le_length_tokens hcodes).trans hfit)
  obtain ⟨u, hu, hcommit⟩ := hdec.decEnd
  refine ⟨u, ?_, hcommit⟩
  rw [(hout hok).1, decodeTxn, List.cons_append, execAll_cons_of_next (exec_decBegin_of_ready hv)]
  exact (execAll_append_of_next hw).trans (execAll_cons_of_next hu)

end Sys2Proof.Machine

/-! ## Every step answers (R200, R202) -/

namespace Sys2Proof.Machine

/-- Settles O13: the step runs the decoded command on the released state, which is the state with BUSY back at 0. -/
theorem completingStepRunsDecodedCommand : Obligations.CompletingStepRunsDecodedCommand :=
  fun _ _ _ _ ha hd => step_of_completing ha hd

/-- No state stops the block: a step that runs a command answers because the command does, every other step settles. -/
theorem step_next (s : State) : ∃ t, step s = .next t := by
  obtain ⟨a, h⟩ | h | h | ⟨i, h⟩ := step_shape s.activity
  · exact ⟨_, h s rfl⟩
  · exact ⟨_, h s rfl⟩
  · exact ⟨_, h s rfl⟩
  · rw [h s rfl]
    exact exec_next i s.release

/-- Settles O19: every step answers (`step_next`), and an idle block takes the word (`cmdWriteIsTakenOrDropped`). -/
theorem blockNeverStops : Obligations.BlockNeverStops := by
  refine ⟨step_next, fun s v hidle => ?_⟩
  have htaken := (cmdWriteIsTakenOrDropped { s with host := [.write 0 v] } 0 v [] (by decide) rfl).1 hidle
  obtain ⟨n, t, hstep, rfl, -, -⟩ := htaken
  exact ⟨n, _, hstep, rfl⟩

end Sys2Proof.Machine

/-! ## Reset (R43, R230 to R232) -/

namespace Sys2Proof.Machine

/-- A block that is idle or has steps left to go serves RST in its next step, whatever it is doing (R231; log 5). -/
theorem step_rst {s : State} {rest : List HostAction} (hh : s.host = .rst :: rest)
    (ha : s.activity = .idle ∨ (∃ w old n, s.activity = .running w old (n + 1)) ∨ ∃ n, s.activity = .initialising (n + 1)) :
    step s = .next (State.hardReset { s with host := rest }) := by
  rcases ha with ha | ⟨w, old, n, ha⟩ | ⟨n, ha⟩
  · exact (step_of_idle ha).trans (congrArg _ (serveHost_rst hh))
  · exact (step_of_running ha).trans (congrArg _ (serveHost_rst hh))
  · exact (step_of_initialising ha).trans (congrArg _ (serveHost_rst hh))

/-- STATUS does not show how long the initialisation takes, so RST makes it read as at reset. -/
theorem memRead_hardReset_status (s : State) : memRead (State.hardReset s) 0x004 = 0x00000001 :=
  reset_statusWord

/-- Settles O17: the step serves RST (`step_rst`), which leaves every register as at reset. -/
theorem resetAbandonsEverything : Obligations.ResetAbandonsEverything := by
  intro s rest hh ha
  refine ⟨_, _, step_rst hh ha, rfl, rfl, rfl, rfl, rfl, rfl, rfl, rfl, rfl, rfl, rfl, rfl, fun x => ?_, rfl, rfl, rfl, rfl,
    memRead_hardReset_status _, rfl, rfl⟩
  exact ⟨reset_freqOf x, CodeTable.lenOf_empty x, CodeTable.bitsOf_empty x⟩

end Sys2Proof.Machine

/-! ## A host that waits before each CMD write (R201, R235) -/

namespace Sys2Proof.Machine

/-! ### The duty along a script -/

section Script

variable {off : Offset} {v : Word} {pending : Bool} {rest : List HostAction}

/-- `HostAction.writesCmd` speaks of the offset the access acts at (R62). -/
theorem writesCmd_write_iff : (HostAction.write off v).writesCmd = true ↔ alignedOffset off = 0 := by
  have hshift : off >>> 2 = 0 ↔ off.toNat / 4 = 0 := by
    rw [← BitVec.toNat_inj, BitVec.toNat_ushiftRight, Nat.shiftRight_eq_div_pow]
    rfl
  rw [HostAction.writesCmd, beq_iff_eq, hshift, alignedOffset]
  omega

/-- A waiting host writes CMD only when nothing is pending, and what follows is pending again. -/
theorem scriptWaits_cmdWrite_iff (ho : alignedOffset off = 0) :
    scriptWaits pending (.write off v :: rest) = true ↔ pending = false ∧ scriptWaits true rest = true := by
  simp [scriptWaits, writesCmd_write_iff.2 ho]

theorem scriptWaits_otherWrite (ho : alignedOffset off ≠ 0) :
    scriptWaits pending (.write off v :: rest) = scriptWaits pending rest := by
  simp [scriptWaits, mt writesCmd_write_iff.1 ho]

theorem scriptWaits_readout (n : Nat) : scriptWaits pending (readout n ++ rest) = scriptWaits pending rest := by
  unfold readout
  induction List.range (min 16384 ((n + 3) / 4)) with
  | nil => rfl
  | cons j js ih => exact ih

/-- A host that keeps its duty keeps it also when nothing is pending. -/
theorem scriptWaits_false_of {as : List HostAction} (h : scriptWaits pending as = true) : scriptWaits false as = true := by
  induction as with
  | nil => rfl
  | cons a as ih =>
    cases a with
    | read _ | readout => exact ih h
    | wait | rst => exact h
    | write off v =>
      by_cases ho : alignedOffset off = 0
      · exact (scriptWaits_cmdWrite_iff ho).2 ⟨rfl, ((scriptWaits_cmdWrite_iff ho).1 h).2⟩
      · rw [scriptWaits_otherWrite ho] at h ⊢
        exact ih h

end Script

/-! ### The duty along a run -/

/-- The rest of the script keeps the duty of R235, where a busy block counts as pending. -/
def State.hostWaits (s : State) : Prop :=
  scriptWaits s.busy s.host = true

/-- The block becoming idle leaves nothing pending. -/
theorem State.hostWaits.of_idle {s t : State} (h : s.hostWaits) (hidle : t.activity = .idle) (hh : t.host = s.host) :
    t.hostWaits := by
  rw [State.hostWaits, t.busy_false_iff.2 hidle, hh]
  exact scriptWaits_false_of h

/-- Serving an action leaves a host that keeps its duty in the rest of the script. -/
theorem serveHost_keeps_hostWaits {s : State} (h : s.hostWaits) : (serveHost s).hostWaits := by
  cases hh : s.host with
  | nil => rwa [serveHost_nil hh]
  | cons a rest =>
    have hw : scriptWaits s.busy (a :: rest) = true := hh ▸ h
    cases a with
    | read off => rw [serveHost_read hh]; exact hw
    | write off v =>
      rw [serveHost_write hh]
      rcases memWrite_cases { s with host := rest } off v with ⟨ho, he⟩ | ⟨ho, hb, -⟩ | ⟨ho, -, he⟩
      · rw [he]
        exact (scriptWaits_otherWrite ho).symm.trans hw
      · exact absurd (hb.symm.trans ((scriptWaits_cmdWrite_iff ho).1 hw).1) (by decide)
      · rw [he]
        exact ((scriptWaits_cmdWrite_iff ho).1 hw).2
    | wait =>
      rw [serveHost_wait hh]
      cases hb : s.busy with
      | true => exact h
      | false => exact (congrArg (scriptWaits · rest) hb).trans hw
    | readout =>
      rw [serveHost_readout hh]
      exact (scriptWaits_readout _).trans hw
    | rst => rw [serveHost_rst hh]; exact hw

/-- No command changes the host's script. -/
theorem exec_host {i : Instr} {s t : State} (h : exec i s = .next t) : t.host = s.host := by
  have hself : t = t.withBus s.activity s.draws s.host :=
    Host.Outcome.next.inj (h.symm.trans (exec_withBus s s.activity s.draws s.host h))
  exact (congrArg State.host hself).trans rfl

/-- A step that keeps the block busy or idle serves the host; every other one leaves the block idle and the script as it was. -/
theorem step_keeps_hostWaits {s t : State} (h : s.hostWaits) (hstep : step s = .next t) : t.hostWaits := by
  rcases step_cases hstep with ⟨a, rfl, ha⟩ | ⟨-, rfl⟩ | ⟨w, d, e, -, -, rfl⟩ | ⟨w, d, i, -, -, hx⟩
  · have hb : State.busy { s with activity := a } = s.busy := by
      rcases ha with ⟨rfl, ha⟩ | ⟨n, rfl, ha⟩ | ⟨w, d, n, rfl, ha⟩
      · exact (s.busy_false_iff.2 ha).symm
      · exact (State.busy_of_initialising ha).symm
      · exact (State.busy_of_running ha).symm
    exact serveHost_keeps_hostWaits ((congrArg (scriptWaits · s.host) hb).trans h)
  · exact h.of_idle rfl rfl
  · exact h.of_idle rfl rfl
  · exact h.of_idle (exec_activity hx) ((exec_host hx).trans rfl)

/-- Only a CMD write to a busy block sets DROPPED (`droppedIsSticky`), and a host that keeps its duty makes none. -/
theorem step_of_hostWaits_drops_nothing {s t : State} (h : s.hostWaits) (hd : s.dropped = false) (hstep : step s = .next t) :
    t.dropped = false := by
  by_contra ht
  obtain ⟨hbusy, off, v, rest, hh, ho, -⟩ := (droppedIsSticky s t hstep).2 hd (Bool.eq_true_of_not_eq_false ht)
  have hw : scriptWaits s.busy (.write off v :: rest) = true := hh ▸ h
  have hidle := ((scriptWaits_cmdWrite_iff ((alignedOffset_eq_zero_iff off).2 ho)).1 hw).1
  exact hbusy (s.busy_false_iff.1 hidle)

/-- Settles O21, by induction on the steps: each keeps the duty (`step_keeps_hostWaits`) and DROPPED at 0
(`step_of_hostWaits_drops_nothing`). -/
theorem waitingHostNeverDropsWrite : Obligations.WaitingHostNeverDropsWrite := by
  intro n s t hd hw hrun
  induction n generalizing s with
  | zero => cases hrun; exact hd
  | succ n ih =>
    obtain ⟨u, hu⟩ := step_next s
    exact ih u (step_of_hostWaits_drops_nothing hw hd hu) (step_keeps_hostWaits hw hu) (run_succ_of_next hu ▸ hrun)

end Sys2Proof.Machine
